-- ==== Sys2Proof/Config.lean ====
section
/-! DEFINITION. The named constants of R11 (00_scope.md), under the spec's own names. They are the values
this hardware takes (R11, U16): none is a free value, and no rule of the spec leaves a value open that an
operation computes, so this file holds no uninterpreted constant. The definitions after the table's nineteen
names are computed from them, so that a corrected value changes one line (R11). -/

namespace Sys2Proof.Config

/-- Bits in a byte. -/
@[simp] abbrev BYTE_BITS : Nat := 8
/-- Bytes in a frame. -/
@[simp] abbrev FRAME_LEN : Nat := 14
/-- Offset of the start marker. -/
@[simp] abbrev OFF_START : Nat := 0
/-- Start marker value. -/
@[simp] abbrev START : BitVec BYTE_BITS := 0x02#BYTE_BITS
/-- Offset of the raw key byte. -/
@[simp] abbrev OFF_KEY : Nat := 1
/-- Constant XORed with the raw key byte to give the decode key. -/
@[simp] abbrev KEY_CONST : BitVec BYTE_BITS := 0x26#BYTE_BITS
/-- Offset of the obfuscated newline byte. -/
@[simp] abbrev OFF_NL : Nat := 2
/-- What the source says byte 2 decodes to; never checked (R99). -/
@[simp] abbrev NL : BitVec BYTE_BITS := 0x0A#BYTE_BITS
/-- Offset of the first payload byte. -/
@[simp] abbrev OFF_PAY : Nat := 3
/-- Payload bytes. -/
@[simp] abbrev PAY_LEN : Nat := 8
/-- First offset covered by the checksum. -/
@[simp] abbrev SUM_FIRST : Nat := 1
/-- Last offset covered by the checksum. -/
@[simp] abbrev SUM_LAST : Nat := 10
/-- Offset of the checksum's high byte; the low byte is the next one. -/
@[simp] abbrev OFF_CK : Nat := 11
/-- Width of the checksum field. -/
@[simp] abbrev CK_BITS : Nat := 16
/-- Offset of the end marker. -/
@[simp] abbrev OFF_END : Nat := 13
/-- End marker value. -/
@[simp] abbrev END : BitVec BYTE_BITS := 0x03#BYTE_BITS
/-- Largest possible sum of ten bytes (R127). -/
@[simp] abbrev SUM_MAX : Nat := 2550
/-- Largest length the framer's buffer reaches (R176). -/
@[simp] abbrev BUF_CAP : Nat := 14
/-- Line speed of the byte source; outside both blocks, used by no rule (R245). -/
@[simp] abbrev BAUD : Nat := 9600

/-- How many bytes the checksum covers (R93): ten. -/
@[simp] abbrev SUM_LEN : Nat := SUM_LAST + 1 - SUM_FIRST
/-- Width of the port that carries a frame (R18): 112. -/
@[simp] abbrev FRAME_BITS : Nat := FRAME_LEN * BYTE_BITS
/-- Width of the port that carries a payload (R18): 64. -/
@[simp] abbrev PAY_BITS : Nat := PAY_LEN * BYTE_BITS
/-- Weight of the high byte of the checksum field (R92): 256. -/
@[simp] abbrev CK_WEIGHT : Nat := 2 ^ (CK_BITS - BYTE_BITS)

end Sys2Proof.Config
end

