-- ==== Sys2Proof/Word.lean ====
section
/-! DEFINITION. The units of data of the U2v2 frame protocol: the byte (R13), the frame and the payload
(R17), and the packed vectors that carry them at the ports (R18). Every size is a constant of R11 or computed
from one. -/

namespace Sys2Proof

/-- A byte (R13): 8 bits, bit 7 the most significant. -/
abbrev Byte := BitVec Config.BYTE_BITS

/-- A `Frame` (R17): exactly 14 bytes; `f[i]` is the byte at offset `i`, offset 0 having arrived first (R14). -/
abbrev Frame := Vector Byte Config.FRAME_LEN

/-- A `Payload` (R17): exactly 8 bytes. -/
abbrev Payload := Vector Byte Config.PAY_LEN

/-- The checksummed region of a frame (R93): the ten bytes at offsets 1 to 10. -/
abbrev Region := Vector Byte Config.SUM_LEN

/-- A frame on its port, `frame[111:0]` (R18, R44). -/
abbrev FrameBits := BitVec Config.FRAME_BITS

/-- A payload on its port, `payload[63:0]` (R18, R44). -/
abbrev PayloadBits := BitVec Config.PAY_BITS

end Sys2Proof
end

