-- ==== Sys2Proof/Machine/Operands.lean ====
section
/-! DEFINITION. Operand assembly (30_encoding.md R90 to R95): the fields of a frame, the packed port
vectors of R18, and the first 14 bytes of a candidate (R64). -/

namespace Sys2Proof.Machine

open Sys2Proof

/-- `be16(hi, lo) = 256 * hi + lo` (R15). -/
def be16 (hi lo : Byte) : Nat := Config.CK_WEIGHT * hi.toNat + lo.toNat

/-- The field `cksum` (R92): big-endian, bytes 11 and 12. -/
def checksumField (f : Frame) : Nat := be16 f[Config.OFF_CK] f[Config.OFF_CK + 1]

/-- The checksummed region (R93): frame offsets 1 to 10 as they are on the wire. -/
def checksumRegion (f : Frame) : Region :=
  Vector.ofFn fun i => f.get (i.addNat Config.SUM_FIRST |>.castLE (by decide))

/-- The decode key of a frame (R94, R124): the raw key byte XOR 0x26. -/
def decodeKey (f : Frame) : Byte := f[Config.OFF_KEY] ^^^ Config.KEY_CONST

/-- The fields `pay[0..7]` (R90, R95): frame bytes 3 to 10 as they are on the wire. -/
def payloadField (f : Frame) : Payload :=
  Vector.ofFn fun i => f.get (i.addNat Config.OFF_PAY |>.castLE (by decide))

/-- The eight independent XOR lanes of R125. -/
def xorLanes (key : Byte) (p : Payload) : Payload :=
  Vector.ofFn fun i => p[i.val] ^^^ key

/-- What byte 2 decodes to (R90, field `nl`). No operation of the hardware looks at it (R99). -/
def clearNewline (f : Frame) : Byte := f[Config.OFF_NL] ^^^ decodeKey f

/-- A byte on the eight bits of a port that begin at bit `low`, bit 7 of the byte highest (R18). -/
def byteLane (width : Nat) (b : Byte) (low : Nat) : BitVec width := b.setWidth width <<< low

/-- The lowest bit of the lane of byte `i` of `n` bytes on a port (R18): byte 0 lies highest. -/
def laneLow (n i : Nat) : Nat := Config.BYTE_BITS * (n - 1 - i)

/-- `n` bytes side by side on a port, byte 0 on the highest bits (R18). -/
def packBytes {n : Nat} (v : Vector Byte n) : BitVec (n * Config.BYTE_BITS) :=
  (List.finRange n).foldr (fun i w => byteLane _ (v.get i) (laneLow n i) ||| w) 0#_

/-- The `n` bytes a port carries (R18). -/
def unpackBytes {n : Nat} (w : BitVec (n * Config.BYTE_BITS)) : Vector Byte n :=
  Vector.ofFn fun i => w.extractLsb' (laneLow n i) Config.BYTE_BITS

/-- A frame on the port `frame[111:0]` (R18): `F[i]` on bits `[111-8*i : 104-8*i]`. -/
def packFrame (f : Frame) : FrameBits := packBytes f

/-- The frame a port value carries (R18). -/
def unpackFrame (w : FrameBits) : Frame := unpackBytes w

/-- A payload on the port `payload[63:0]` (R18): `P[i]` on bits `[63-8*i : 56-8*i]`. -/
def packPayload (p : Payload) : PayloadBits := packBytes p

/-- The payload a port value carries (R18). -/
def unpackPayload (w : PayloadBits) : Payload := unpackBytes w

/-- `take(14, C)` as a frame (R64): the first 14 bytes of a candidate, and nothing for a shorter one. -/
def takeFrame (c : List Byte) : Option Frame :=
  if h : Config.FRAME_LEN ≤ c.length then
    some (Vector.ofFn fun i => c.get (i.castLE h))
  else none

end Sys2Proof.Machine
end

