-- ==== Sys2Proof/Machine/Flags.lean ====
section
/-! DEFINITION. The three conditions of the Packet Decoder and the byte sum (40_packet_decoder.md R120 to
R123). They are names inside `PARSE`, not stored flags (R37): the hardware stores none. -/

namespace Sys2Proof.Machine

open Sys2Proof

/-- `start_ok` (R120). -/
def startOk (f : Frame) : Bool := f[Config.OFF_START] == Config.START

/-- `end_ok` (R121). -/
def endOk (f : Frame) : Bool := f[Config.OFF_END] == Config.END

/-- `sum(B)` (R15): addition of natural numbers, no wrap-around and no width limit. -/
def sumBytes (bs : List Byte) : Nat := (bs.map BitVec.toNat).sum

/-- `s`, the plain sum of the raw bytes 1 to 10 (R122). -/
def byteSum (f : Frame) : Nat := sumBytes (checksumRegion f).toList

/-- `sum_ok` for a sum `s` (R123): exact equality of natural numbers. -/
def sumOk (s : Nat) (f : Frame) : Bool := s == checksumField f

/-- A frame is valid exactly when all three conditions hold (R97); byte 2 is not checked (R99). -/
def frameOk (f : Frame) : Bool := startOk f && endOk f && sumOk (byteSum f) f

end Sys2Proof.Machine
end

