-- ==== Sys2Proof/Syntax.lean ====
section
/-! DEFINITION. The operations of the hardware, one constructor per row of spec/opcode_table.json (R96). -/

namespace Sys2Proof

/-- The two frame patterns and the fifteen named operations (R96, R20). -/
inductive Instr where
  /-- `VALID` (R97, R107): a valid frame on the Packet Decoder's port. -/
  | valid (f : Frame)
  /-- `INVALID` (R97, R107): any other frame on the Packet Decoder's port. -/
  | invalid (f : Frame)
  /-- `CHKS` (R120): start-marker check. -/
  | chks (f : Frame)
  /-- `CHKE` (R121): end-marker check. -/
  | chke (f : Frame)
  /-- `CSUM` (R122): byte sum over offsets 1 to 10. -/
  | csum (f : Frame)
  /-- `CCMP` (R123): the sum `s` against the checksum field of `f`. -/
  | ccmp (s : Nat) (f : Frame)
  /-- `KEYD` (R124): decode-key derivation. -/
  | keyd (f : Frame)
  /-- `XDEC` (R125): XOR decode of the eight payload lanes of `f` with `key`. -/
  | xdec (key : Byte) (f : Frame)
  /-- `PARSE` (R126) of a candidate: its first 14 bytes are examined (R64, R130). -/
  | parse (c : List Byte)
  /-- `ENCODE` (R131): the valid frame with decode key `k`, clear byte 2 `nlv` and payload `p`. -/
  | encode (k nlv : Byte) (p : Payload)
  /-- `READ` (R160): the host starts a `read()`. -/
  | read
  /-- `FILL` (R161), the byte source choosing to answer with `m` bytes (R66). -/
  | fill (m : Nat)
  /-- `RESYNC0` (R162): discard up to the first start marker. -/
  | resync0
  /-- `TRY` (R163): length check and decode attempt. -/
  | tryDecode
  /-- `RESYNC1` (R164): the failure outcome of `TRY`. -/
  | resync1
  /-- `RETURN` (R165): the success outcome of `TRY`. -/
  | returnPayload
  /-- `CANCEL` (R170): the host abandons the `read()`. -/
  | cancel
  deriving DecidableEq, Repr

/-- `ENCODE(k, P)` with two arguments means `ENCODE(k, 0x0A, P)` (R103). -/
def Instr.encodeNewline (k : Byte) (p : Payload) : Instr := .encode k Config.NL p

end Sys2Proof
end

