-- ==== Sys2Proof/Machine/State.lean ====
section
/-! DEFINITION. The state: the Stream Framer's pair (`BUF`, `ST`), which is the whole state of the hardware
(R30, R31), and beside it, as plain data, what the environment holds and does next, and what the step just
taken put out. -/

namespace Sys2Proof.Machine

open Sys2Proof

/-- The control state `ST` (R36). -/
inductive St where
  /-- No `READ` is in progress. -/
  | idle
  /-- The next step is `FILL`. -/
  | filling
  /-- The next step is `RESYNC0`. -/
  | resyncing
  /-- The next step is `TRY`. -/
  | decoding
  deriving DecidableEq, Repr

/-- The answer of `PARSE` (R17). -/
inductive Verdict where
  | valid (p : Payload)
  | invalid
  deriving DecidableEq, Repr

/-- What an operation of the Packet Decoder, or `ENCODE`, computed. These are the named values of R120 to
R126 and R131; the hardware holds none of them (R37, R39). DESIGN CHOICE, log 4. -/
inductive Result where
  /-- `start_ok`, `end_ok` or `sum_ok`. -/
  | condition (ok : Bool)
  /-- The byte sum `s`. -/
  | sum (s : Nat)
  /-- The decode key. -/
  | key (k : Byte)
  /-- The eight decoded lanes. -/
  | lanes (p : Payload)
  /-- The verdict of `PARSE`. -/
  | verdict (v : Verdict)
  /-- The frame `ENCODE` builds. -/
  | frame (f : Frame)
  deriving DecidableEq, Repr

/-- The input pins of the Stream Framer in one clock cycle (R46, R48). `in_data` is not among them: it is
the front of the byte source (R67; log 7). -/
structure Pins where
  rst : Bool
  rdReq : Bool
  rdCancel : Bool
  inValid : Bool
  deriving DecidableEq, Repr

/-- What the environment does in one step (agents (b) and (c) of R21, the driver of the decoder's port, and
reset). DESIGN CHOICE: the open parameters `SRC` and `HOST` of R12 are a list of these; log 1. -/
inductive Event where
  /-- The environment does nothing: the framer takes the step `ST` calls for, if there is one (R172). -/
  | quiet
  /-- The environment selects the operation `i`: the host calls `READ` or `CANCEL` (R160, R170), the byte
  source answers a request (`FILL m`, R66), or a part of the decoder is evaluated on its own. -/
  | op (i : Instr)
  /-- `w` is put on the Packet Decoder's port `frame[111:0]` (R44). -/
  | present (w : FrameBits)
  /-- Bytes of the scale arrive at the byte source and wait there (R41, R205, R253). -/
  | arrive (bs : List Byte)
  /-- Reset (R240). -/
  | reset
  /-- One rising edge of `clk` with these pins (R188). -/
  | clock (p : Pins)
  deriving DecidableEq, Repr

/-- The faults of a step: there are none. "Neither block raises an exception, a trap or a fault, on any
input" (R200); "*Fault*: never" (R217). Nothing raises one, so nothing here is safe or unsafe. -/
inductive Fault where
  deriving DecidableEq, Repr

/-- The refusals of a step. -/
inductive Refusal where
  /-- An operation without a meaning yet, raised by its arm of `exec`; no arm raises it now. Safe: the run
  stops where the hardware would go on. -/
  | notModelled (mnemonic : String)
  /-- `PARSE` of fewer than 14 bytes, raised by `execParse`: the spec asks for a refusal and gives no result
  (R64, R217). Safe: the hardware's port cannot express such a candidate. -/
  | shortCandidate
  deriving DecidableEq, Repr

/-- The state of the machine. -/
structure State where
  /-- `BUF`, oldest byte first (R32); `LEN` is its length (R31), at most 14 on every run (R34, R176). -/
  buf : List Byte
  /-- `ST` (R36). -/
  st : St
  /-- The bytes the byte source holds and has not yet delivered, front first (R41, R66). Environment. -/
  source : List Byte
  /-- What the environment does in the coming steps, one event a step; when the list is used up it does
  nothing. Environment (log 1). -/
  events : List Event
  /-- The value driven on the decoder's port `frame[111:0]` (R44). Environment. -/
  frame : FrameBits
  /-- The payload delivered to the host by the step just taken (R165, R42): an output event, read by no
  operation (log 4). -/
  delivery : Option Payload
  /-- What the decoder's operation in the step just taken computed: an output, read by no operation
  (log 4). -/
  result : Option Result
  deriving DecidableEq, Repr

/-- The machine right after reset (R50, R240): `BUF` empty, `ST = IDLE`, nothing put out. What the
environment holds is not reset by the blocks and not given by the spec: an empty byte source, no event and
an all-zero port are DESIGN CHOICE (log 1, log 2, log 6). -/
def State.reset : State where
  buf := []
  st := .idle
  source := []
  events := []
  frame := 0#_
  delivery := none
  result := none

/-- The outcome of an operation or of a step. -/
abbrev Outcome := Host.Outcome State Fault Refusal

end Sys2Proof.Machine
end

