-- ==== Sys2Proof/Machine/Ops.lean ====
section
/-! DEFINITION. The named operations the meanings share: the decoder's function and its inverse
(40_packet_decoder.md), the access primitives of 20_memory.md, and the framer's two outcomes of a decode
attempt (41_stream_framer.md). There is no exception to take or return from (R200, R208, R209): the only
failure path is `resyncAfterFailure`. -/

namespace Sys2Proof.Machine

open Sys2Proof

/-- `PARSE` (R126), the whole function of the Packet Decoder (R30): total and pure (R97, R130). -/
def parse (f : Frame) : Verdict :=
  if frameOk f then .valid (xorLanes (decodeKey f) (payloadField f)) else .invalid

/-- The `valid` output of the decoder's port for an input `w` (R45). -/
def portValid (w : FrameBits) : Bool :=
  match parse (unpackFrame w) with
  | .valid _ => true
  | .invalid => false

/-- The `payload[63:0]` output of the decoder's port for an input `w`: all zero when the frame is
`Invalid` (R45). -/
def portPayload (w : FrameBits) : PayloadBits :=
  match parse (unpackFrame w) with
  | .valid p => packPayload p
  | .invalid => 0#_

/-- Bytes 1 to 10 of the frame a sender builds (R131): the raw key, byte 2 and the eight lanes, each at its
offset. -/
def encodedRegion (k nlv : Byte) (p : Payload) : Region :=
  Vector.ofFn fun i =>
    let offset := i.val + Config.SUM_FIRST
    if offset = Config.OFF_KEY then k ^^^ Config.KEY_CONST
    else if offset = Config.OFF_NL then nlv ^^^ k
    else
      p[offset - Config.OFF_PAY]'(by
        have := i.isLt
        simp only [Config.SUM_LEN, Config.SUM_LAST, Config.SUM_FIRST, Config.OFF_PAY, Config.PAY_LEN, offset]
          at this ⊢
        omega) ^^^ k

/-- A region with its markers and its checksum, high byte first, each at its offset (R131). -/
def closeFrame (r : Region) : Frame :=
  let s := sumBytes r.toList
  Vector.ofFn fun i =>
    if h : Config.SUM_FIRST ≤ i.val ∧ i.val ≤ Config.SUM_LAST then
      r[i.val - Config.SUM_FIRST]'(by
        simp only [Config.SUM_LEN, Config.SUM_LAST, Config.SUM_FIRST] at h ⊢
        omega)
    else if i.val = Config.OFF_START then Config.START
    else if i.val = Config.OFF_END then Config.END
    else if i.val = Config.OFF_CK then BitVec.ofNat _ (s / Config.CK_WEIGHT)
    else BitVec.ofNat _ (s % Config.CK_WEIGHT)

/-- `ENCODE(k, nlv, P)` (R131). -/
def encodeFrame (k nlv : Byte) (p : Payload) : Frame := closeFrame (encodedRegion k nlv p)

/-- `LEN` (R31). -/
def State.len (s : State) : Nat := s.buf.length

/-- `find(v, B, from)` (R15, R73): the least offset at or after `start` that holds `v`. -/
def find (v : Byte) (b : List Byte) (start : Nat) : Option Nat :=
  ((b.drop start).findIdx? (· == v)).map (· + start)

/-- `Append(bs)` (R70). -/
def State.append (s : State) (bs : List Byte) : State := { s with buf := s.buf ++ bs }

/-- `TrimFront(k)` (R71). -/
def State.trimFront (s : State) (k : Nat) : State := { s with buf := s.buf.drop k }

/-- `MemRead(addr, n)`: the bytes `BUF[addr..addr+n-1]`, where they are all held (R16, R72). -/
def State.memRead (s : State) (addr n : Nat) : Option (List Byte) :=
  if addr + n ≤ s.len then some ((s.buf.drop addr).take n) else none

/-- The candidate frame `MemRead(0, 14)`, defined only when `LEN >= 14` (R72). -/
def State.candidate (s : State) : Option Frame :=
  match s.memRead 0 Config.FRAME_LEN with
  | some bs => takeFrame bs
  | none => none

/-- The size of the request `FILL` makes (R105, R161): `14 - LEN`. -/
def State.requestSize (s : State) : Nat := Config.FRAME_LEN - s.len

/-- `SrcRequest(n)` answered by `Append` (R66, R67, R161): the bytes leave the front of the source and go
to the end of `BUF`. `m` is the oracle's choice; the contract bounds it by `n` and by what the source
holds, and a choice outside the bounds is cut to them (DESIGN CHOICE, log 5). -/
def State.srcRequest (s : State) (n m : Nat) : State :=
  { s.append (s.source.take (min m n)) with source := s.source.drop (min m n) }

/-- Trims `BUF` to the first start marker at or after `start`, or empties it (R162, R164). -/
def State.trimToMarker (s : State) (start : Nat) : State :=
  match find Config.START s.buf start with
  | some j => s.trimFront j
  | none => s.trimFront s.len

/-- `ST <- x` (R16). -/
def State.setSt (s : State) (x : St) : State := { s with st := x }

/-- The outcome of `TRY` on a verdict `Invalid` (R164, R208): the marker just tried and everything before
the next one are discarded. -/
def State.resyncAfterFailure (s : State) : State := (s.trimToMarker 1).setSt .decoding

/-- The outcome of `TRY` on a verdict `Valid(p)` (R165): the frame is consumed, `p` is delivered and the
`READ` ends. -/
def State.deliver (s : State) (p : Payload) : State :=
  { (s.trimFront Config.FRAME_LEN).setSt .idle with delivery := some p }

/-- The value an operation of the decoder computed. -/
def State.answer (s : State) (r : Result) : State := { s with result := some r }

/-- A frame put on the decoder's port (R44); the port answers its verdict (R45). -/
def State.drivePort (s : State) (f : Frame) : State :=
  { s.answer (.verdict (parse f)) with frame := packFrame f }

/-- The framer's reset (R240, R242): `BUF` empty, `ST = IDLE`, whatever they were. The byte source is not
reached (R243), and the decoder has no reset. -/
def State.resetFramer (s : State) : State := { s with buf := [], st := .idle }

/-- A step begins: its event is taken from the front of the schedule and the outputs of the step before
are over (R42: a payload is an output event and is not held; log 4). -/
def State.beginStep (s : State) : State :=
  { s with events := s.events.tail, delivery := none, result := none }

/-- The event of the coming step; with the schedule used up the environment does nothing (log 1). -/
def State.nextEvent (s : State) : Event := s.events.headD .quiet

end Sys2Proof.Machine
end

