-- ==== Sys2Proof/Machine/FramePatterns.lean ====
section
/-! DEFINITION. The two frame-pattern rows `VALID` and `INVALID` (R97, R107): a frame on the Packet
Decoder's port. -/

namespace Sys2Proof.Machine

open Sys2Proof

/-- `VALID` (R97, R126, R45): the frame is put on the port, which answers `PARSE` of it. -/
def execValid (f : Frame) (s : State) : Outcome := .next (s.drivePort f)

/-- `INVALID` (R97, R126, R45): the same port, the same function; nothing is raised (R201). -/
def execInvalid (f : Frame) (s : State) : Outcome := .next (s.drivePort f)

end Sys2Proof.Machine
end

