-- ==== Sys2Proof/Machine/PacketDecoder.lean ====
section
/-! DEFINITION. The operations of the Packet Decoder (40_packet_decoder.md R120 to R126) and the test
helper `ENCODE` (R131). Each computes a value and writes no state of the hardware (R30). -/

namespace Sys2Proof.Machine

open Sys2Proof

/-- `CHKS` (R120). -/
def execChks (f : Frame) (s : State) : Outcome := .next (s.answer (.condition (startOk f)))

/-- `CHKE` (R121). -/
def execChke (f : Frame) (s : State) : Outcome := .next (s.answer (.condition (endOk f)))

/-- `CSUM` (R122). -/
def execCsum (f : Frame) (s : State) : Outcome := .next (s.answer (.sum (byteSum f)))

/-- `CCMP` (R123). -/
def execCcmp (sum : Nat) (f : Frame) (s : State) : Outcome :=
  .next (s.answer (.condition (sumOk sum f)))

/-- `KEYD` (R124). -/
def execKeyd (f : Frame) (s : State) : Outcome := .next (s.answer (.key (decodeKey f)))

/-- `XDEC` (R125). -/
def execXdec (key : Byte) (f : Frame) (s : State) : Outcome :=
  .next (s.answer (.lanes (xorLanes key (payloadField f))))

/-- `PARSE` (R126) of a candidate: the first 14 bytes are put on the port and judged (R64, R130); a
candidate of fewer than 14 bytes is refused, as R64 asks (log 10). -/
def execParse (c : List Byte) (s : State) : Outcome :=
  match takeFrame c with
  | some f => .next (s.drivePort f)
  | none => .refused .shortCandidate

/-- `ENCODE` (R131). -/
def execEncode (k nlv : Byte) (p : Payload) (s : State) : Outcome :=
  .next (s.answer (.frame (encodeFrame k nlv p)))

end Sys2Proof.Machine
end

