-- ==== Sys2Proof/Machine/StreamFramer.lean ====
section
/-! DEFINITION. The operations of the Stream Framer (41_stream_framer.md R160 to R165, R170). An operation
whose enabling condition does not hold has no step (R172): it leaves the state as it is (log 3). -/

namespace Sys2Proof.Machine

open Sys2Proof

/-- `READ` (R160). Enabled when `ST == IDLE`; ignored otherwise (R47, R80). -/
def execRead (s : State) : Outcome :=
  match s.st with
  | .idle => .next (s.setSt .filling)
  | _ => .next s

/-- `FILL` (R161), answered with `m` bytes. Enabled when `ST == FILLING`. It goes to `RESYNCING` whatever
`m` is. -/
def execFill (m : Nat) (s : State) : Outcome :=
  match s.st with
  | .filling => .next ((s.srcRequest s.requestSize m).setSt .resyncing)
  | _ => .next s

/-- `RESYNC0` (R162). Enabled when `ST == RESYNCING`. -/
def execResync0 (s : State) : Outcome :=
  match s.st with
  | .resyncing => .next ((s.trimToMarker 0).setSt .decoding)
  | _ => .next s

/-- `TRY` (R163). Enabled when `ST == DECODING`. The attempt and its outcome are one step (R171). -/
def execTryDecode (s : State) : Outcome :=
  match s.st with
  | .decoding =>
    match s.candidate with
    | none => .next (s.setSt .filling)
    | some f =>
      match parse f with
      | .valid p => .next (s.deliver p)
      | .invalid => .next s.resyncAfterFailure
  | _ => .next s

/-- `RESYNC1` (R164). It happens inside `TRY`, verdict `Invalid`; elsewhere it has no step. -/
def execResync1 (s : State) : Outcome :=
  match s.st, s.candidate.map parse with
  | .decoding, some .invalid => .next s.resyncAfterFailure
  | _, _ => .next s

/-- `RETURN` (R165). It happens inside `TRY`, verdict `Valid(p)`; elsewhere it has no step. -/
def execReturnPayload (s : State) : Outcome :=
  match s.st, s.candidate.map parse with
  | .decoding, some (.valid p) => .next (s.deliver p)
  | _, _ => .next s

/-- `CANCEL` (R170). Enabled when `ST != IDLE`; `BUF` is kept and nothing is delivered. -/
def execCancel (s : State) : Outcome :=
  match s.st with
  | .idle => .next s
  | _ => .next (s.setSt .idle)

end Sys2Proof.Machine
end

