-- ==== Sys2Proof/Machine/Dispatch.lean ====
section
/-! DEFINITION. One arm per operation. -/

namespace Sys2Proof.Machine

open Sys2Proof

def exec (i : Instr) (s : State) : Host.Outcome State Fault Refusal :=
  match i with
  | .valid f => Sys2Proof.Machine.execValid f s
  | .invalid f => Sys2Proof.Machine.execInvalid f s
  | .chks f => Sys2Proof.Machine.execChks f s
  | .chke f => Sys2Proof.Machine.execChke f s
  | .csum f => Sys2Proof.Machine.execCsum f s
  | .ccmp sum f => Sys2Proof.Machine.execCcmp sum f s
  | .keyd f => Sys2Proof.Machine.execKeyd f s
  | .xdec key f => Sys2Proof.Machine.execXdec key f s
  | .parse c => Sys2Proof.Machine.execParse c s
  | .encode k nlv p => Sys2Proof.Machine.execEncode k nlv p s
  | .read => Sys2Proof.Machine.execRead s
  | .fill m => Sys2Proof.Machine.execFill m s
  | .resync0 => Sys2Proof.Machine.execResync0 s
  | .tryDecode => Sys2Proof.Machine.execTryDecode s
  | .resync1 => Sys2Proof.Machine.execResync1 s
  | .returnPayload => Sys2Proof.Machine.execReturnPayload s
  | .cancel => Sys2Proof.Machine.execCancel s

end Sys2Proof.Machine
end

