-- ==== Sys2Proof/WellFormed.lean ====
section
/-! DEFINITION. Which operations with which operands the spec admits. -/

namespace Sys2Proof

open Sys2Proof.Machine

/-- The check of one operation's operands: the two frame rows carry the frames of their constraint (R97,
R107), `CCMP` a sum of ten bytes (R127), `PARSE` a candidate of at least 14 bytes (R64), `FILL` an answer
of at most 14 bytes (R65, R105). Every other operand may take every value of its type. -/
def Instr.wellFormed : Instr → Bool
  | .valid f => frameOk f
  | .invalid f => !frameOk f
  | .chks _ => true
  | .chke _ => true
  | .csum _ => true
  | .ccmp s _ => decide (s ≤ Config.SUM_MAX)
  | .keyd _ => true
  | .xdec _ _ => true
  | .parse c => decide (Config.FRAME_LEN ≤ c.length)
  | .encode _ _ _ => true
  | .read => true
  | .fill m => decide (m ≤ Config.FRAME_LEN)
  | .resync0 => true
  | .tryDecode => true
  | .resync1 => true
  | .returnPayload => true
  | .cancel => true

/-- A well-formed operation. -/
abbrev WellFormed (i : Instr) : Prop := i.wellFormed = true

end Sys2Proof
end

