-- ==== Sys2Proof/Decode.lean ====
section
/-! DEFINITION. The frame classifier of R107 and the encoder. Only the two frame patterns have bits (R96:
"None has a bit encoding"): a decoded word is a frame on the Packet Decoder's port. -/

namespace Sys2Proof

open Sys2Proof.Machine

/-- One frame-pattern row of spec/opcode_table.json (R107): `mask` and `match` in the packing of R18, a
constraint on the bytes, and the operation the row stands for. -/
structure FramePattern where
  mask : FrameBits
  pattern : FrameBits
  constraint : Frame → Bool
  operation : Frame → Instr

/-- A frame fits a row when `(pack(F) AND mask) == match` and the row's constraint holds (R107). -/
def FramePattern.fits (row : FramePattern) (f : Frame) : Bool :=
  packFrame f &&& row.mask == row.pattern && row.constraint f

/-- A byte alone on the lane of frame offset `i`, every other bit of the port 0 (R18). -/
def onFrameLane (i : Nat) (b : Byte) : FrameBits := byteLane _ b (laneLow Config.FRAME_LEN i)

/-- The row of the valid frame (R107): all bits of the two marker bytes are looked at. The 112-bit numbers
R107 prints for `mask` and `match` are these (`validRow_mask`, `validRow_pattern`). -/
def validRow : FramePattern where
  mask := onFrameLane Config.OFF_START (.allOnes _) ||| onFrameLane Config.OFF_END (.allOnes _)
  pattern := onFrameLane Config.OFF_START Config.START ||| onFrameLane Config.OFF_END Config.END
  constraint f := checksumField f == byteSum f
  operation := .valid

/-- The operation of a 14-byte frame: the first row that fits, the `INVALID` row taking what is left (R97:
there is no third class). -/
def classify (f : Frame) : Instr :=
  if validRow.fits f then validRow.operation f else .invalid f

/-- Why a byte sequence is no frame. -/
inductive DecodeError where
  /-- Fewer than 14 bytes: refused, never padded (R64, R101). -/
  | shortFrame
  deriving DecidableEq, Repr

/-- The decoder: the operation of the first 14 bytes, with the bytes after them (R64, R101). -/
def decode (bytes : List Byte) : Except DecodeError (Instr × List Byte) :=
  match takeFrame bytes with
  | some f => .ok (classify f, bytes.drop Config.FRAME_LEN)
  | none => .error .shortFrame

/-- The bytes of an operation on the wire: the frame of the two frame patterns; the other operations have
no bit encoding (R96). -/
def encode : Instr → Option (List Byte)
  | .valid f => some f.toList
  | .invalid f => some f.toList
  | .chks _ => none
  | .chke _ => none
  | .csum _ => none
  | .ccmp _ _ => none
  | .keyd _ => none
  | .xdec _ _ => none
  | .parse _ => none
  | .encode _ _ _ => none
  | .read => none
  | .fill _ => none
  | .resync0 => none
  | .tryDecode => none
  | .resync1 => none
  | .returnPayload => none
  | .cancel => none

/-- The operation the decoder reads from a table word. The table numbers the bits of a frame as the packed
port does (R18, R107): bit 0 is `frame[0]`, the least significant bit of the one 112-bit word. A row
without bits has no word to decode (R96). -/
def decodeTableWord (nbits w : Nat) : Option Instr :=
  if nbits = Config.FRAME_BITS then
    match decode (unpackFrame (BitVec.ofNat _ w)).toList with
    | .ok (i, _) => some i
    | .error _ => none
  else none

end Sys2Proof
end

