-- ==== Sys2Proof/Machine/Ports.lean ====
section
/-! DEFINITION. The ports of both blocks (10_state.md R44 to R48) as functions of the state, and the pins'
part of the port-level machine (R188): which operation a clock edge takes. -/

namespace Sys2Proof.Machine

open Sys2Proof

/-- The output `valid` of the decoder's port (R45): combinational, a function of what is driven. -/
def State.pdValid (s : State) : Bool := portValid s.frame

/-- The output `payload[63:0]` of the decoder's port (R45). -/
def State.pdPayload (s : State) : PayloadBits := portPayload s.frame

/-- `busy` (R46). -/
def State.busy (s : State) : Bool := s.st != .idle

/-- `in_ready` in a cycle with the pins `p` (R48). -/
def State.inReady (s : State) (p : Pins) : Bool :=
  s.st == .filling && decide (s.len < Config.FRAME_LEN) && !p.rdCancel

/-- `req_n[3:0]` (R48, R105): `14 - LEN` at all times. -/
def State.reqN (s : State) : BitVec 4 := BitVec.ofNat 4 s.requestSize

/-- `in_data[7:0]`, the byte the source offers: the front of what it holds (R48, R67; log 7). -/
def State.inData (s : State) : Option Byte := s.source.head?

/-- A byte is transferred in a cycle with `in_ready = 1` and `in_valid = 1` (R48); a source that holds
nothing has nothing to offer (R66; log 7). -/
def State.transfers (s : State) (p : Pins) : Bool := s.inReady p && p.inValid && s.inData.isSome

/-- The payload of the `RETURN` that is due: `ST = DECODING` and a valid candidate (third row of R188). -/
def State.returnDue (s : State) : Option Payload :=
  match s.st, s.candidate.map parse with
  | .decoding, some (.valid p) => some p
  | _, _ => none

/-- `out_valid` in a cycle with the pins `p` (R46, R188): the `RETURN` row is taken. Reset takes every
other row's place (R207, R242). -/
def State.outValid (s : State) (p : Pins) : Bool := !p.rst && s.returnDue.isSome

/-- `out_payload[63:0]` in a cycle with the pins `p`: defined only while `out_valid = 1` (R47), so there is
no value to read otherwise (log 9). -/
def State.outPayload (s : State) (p : Pins) : Option PayloadBits :=
  if p.rst then none else s.returnDue.map packPayload

/-- The operation a clock edge with `rst = 0` takes: the rows of R188 in order. -/
def State.clockedOp (s : State) (p : Pins) : Option Instr :=
  match s.st with
  | .idle => if p.rdReq then some .read else none
  | st =>
    if s.returnDue.isSome then some .tryDecode
    else if p.rdCancel then some .cancel
    else match st with
      | .idle => none
      | .filling =>
        if Config.FRAME_LEN ≤ s.len then some (.fill 0)
        else if s.transfers p then some (.fill 1)
        else none
      | .resyncing => some .resync0
      | .decoding => some .tryDecode

end Sys2Proof.Machine
end

