-- ==== Sys2Proof/Machine/Select.lean ====
section
/-! DEFINITION. What a step takes: nothing is fetched from a memory (R36, R81); `ST` and the environment
select the operation (R96, R172). -/

namespace Sys2Proof.Machine

open Sys2Proof

/-- The 2-bit code of `ST` (R106). -/
def St.code : St → BitVec 2
  | .idle => 0b00#2
  | .filling => 0b01#2
  | .resyncing => 0b10#2
  | .decoding => 0b11#2

/-- The control state of a 2-bit code (R106): all four codes are used. -/
def St.ofCode (c : BitVec 2) : St :=
  if c = 0b00#2 then .idle
  else if c = 0b01#2 then .filling
  else if c = 0b10#2 then .resyncing
  else .decoding

/-- The step `ST` calls for when the environment does nothing (R172): none in `IDLE`, and none in `FILLING`
while the source has not answered, except that a request for 0 bytes needs no answer (R68; log 14). -/
def State.ownOp (s : State) : Option Instr :=
  match s.st with
  | .idle => none
  | .filling => if Config.FRAME_LEN ≤ s.len then some (.fill 0) else none
  | .resyncing => some .resync0
  | .decoding => some .tryDecode

/-- The operation of a value on the decoder's port: the decoder of the frame it carries (R107). -/
def presentedOp (w : FrameBits) : Instr := classify (unpackFrame w)

/-- The operation the coming step takes, if it takes one. -/
def State.selected (s : State) : Option Instr :=
  match s.nextEvent with
  | .quiet => s.ownOp
  | .op i => some i
  | .present w => some (presentedOp w)
  | .arrive _ => none
  | .reset => none
  | .clock p => if p.rst then none else s.clockedOp p

/-- What an event does itself in a step that takes no operation: bytes join what the byte source holds
(R41, R253); reset, at the transaction level or on the pin `rst`, empties the framer whatever else is
asserted (R240, R207); anything else leaves everything as it is (R172). -/
def State.applyEvent (s : State) : Event → State
  | .quiet => s
  | .op _ => s
  | .present _ => s
  | .arrive bs => { s with source := s.source ++ bs }
  | .reset => s.resetFramer
  | .clock p => if p.rst then s.resetFramer else s

/-- The schedule with the value `w` put on the decoder's port first. -/
def State.presentNext (s : State) (w : FrameBits) : State :=
  { s with events := .present w :: s.events }

/-- A program (95_test_vectors.md section 4): a byte stream for the source and a schedule for host and
source, loaded from outside the machine (log 1). -/
def State.withProgram (s : State) (stream : List Byte) (schedule : List Event) : State :=
  { s with source := stream, events := schedule }

end Sys2Proof.Machine
end

