-- ==== Sys2Proof/Machine/Step.lean ====
section
/-! DEFINITION. One step: one event of the environment and the operation it or `ST` selects (R171, R172,
R188). -/

namespace Sys2Proof.Machine

open Sys2Proof

/-- One step. Steps are atomic and totally ordered (R171, R207). -/
def step (s : State) : Host.Outcome State Fault Refusal :=
  match s.selected with
  | some i => exec i s.beginStep
  | none => .next (s.beginStep.applyEvent s.nextEvent)

/-- `s` with the table word `w` where the next step takes its operation from: on the decoder's port (log
11). A row without bits (R96) has no word to put anywhere. -/
def State.withFetchWord (s : State) (nbits w : Nat) : State :=
  if nbits = Config.FRAME_BITS then s.presentNext (BitVec.ofNat _ w) else s

end Sys2Proof.Machine
end

