-- ==== Sys2Proof/Machine/Stream.lean ====
section
/-! DEFINITION. The stream-level meaning of `READ` (41_stream_framer.md R181), free of buffers and chunking,
and the schedules that statements about runs use. -/

namespace Sys2Proof.Machine

open Sys2Proof

/-- `SCAN(S)` (R181): the payload of the first valid 14-byte window that begins at a start marker, every
earlier marker's window being complete and invalid, with the bytes after that window; no result when the
bytes run out before (the `READ` blocks). -/
def scan : List Byte → Option (Payload × List Byte)
  | [] => none
  | b :: rest =>
    if b = Config.START then
      match takeFrame (b :: rest) with
      | none => none
      | some f =>
        match parse f with
        | .valid p => some (p, (b :: rest).drop Config.FRAME_LEN)
        | .invalid => scan rest
    else scan rest

/-- `SCAN` taken `n` times: the payloads of `n` successive `READ`s and what they leave (R181, R182). -/
def scans : Nat → List Byte → Option (List Payload × List Byte)
  | 0, bytes => some ([], bytes)
  | n + 1, bytes =>
    match scan bytes with
    | none => none
    | some (p, rest) =>
      match scans n rest with
      | none => none
      | some (ps, left) => some (p :: ps, left)

/-- The bytes an event brings to the byte source. -/
def Event.bytes : Event → List Byte
  | .arrive bs => bs
  | _ => []

/-- The stream as the framer has it before it (R181): the bytes it holds, the bytes the source holds, and
the bytes that are still to arrive at the source. -/
def State.stream (s : State) : List Byte := s.buf ++ s.source ++ s.events.flatMap Event.bytes

/-- A chunking (R24, 95_test_vectors.md section 4) as a schedule: each answer of the source is followed by
the three steps the framer may take before it asks again. -/
def chunked (answers : List Nat) : List Event :=
  answers.flatMap fun m => [.op (.fill m), .quiet, .quiet, .quiet]

/-- Port-level cycles in which the source offers a byte every time and the host asserts nothing. -/
def offering (cycles : Nat) : List Event :=
  List.replicate cycles (.clock { rst := false, rdReq := false, rdCancel := false, inValid := true })

end Sys2Proof.Machine
end

