-- ==== Sys2Proof/Safety.lean ====
section
/-! DEFINITION. What the statements call a good state and a run: the buffer's bound and normal form (R174,
R176), the states of uncancelled `READ`s (R178, R179), which events cancel or reset, and the payloads a run
delivers. -/

namespace Sys2Proof.Machine

open Sys2Proof

/-- A valid frame, spelled with R97's own numbers and not with the names of `Config`, so that statements hold
the decoder and the constants it reads (R11) against the spec's text. -/
def ValidFrame (f : Frame) : Prop :=
  f[0] = 0x02#8 ∧ f[13] = 0x03#8 ∧
    256 * f[11].toNat + f[12].toNat =
      f[1].toNat + f[2].toNat + f[3].toNat + f[4].toNat + f[5].toNat + f[6].toNat + f[7].toNat +
        f[8].toNat + f[9].toNat + f[10].toNat

/-- The payload of a valid frame, spelled with the numbers of R126's pseudocode for the same reason. -/
def decodedLanes (f : Frame) : Payload :=
  let key := f[1] ^^^ 0x26#8
  #v[f[3] ^^^ key, f[4] ^^^ key, f[5] ^^^ key, f[6] ^^^ key, f[7] ^^^ key, f[8] ^^^ key, f[9] ^^^ key,
    f[10] ^^^ key]

/-- The normal form of the buffer (R174): empty, or beginning with a start marker. -/
def markerFirst : List Byte → Bool
  | [] => true
  | b :: _ => b == Config.START

/-- The invariant of every run (R174, R176): `LEN <= 14`, and in `DECODING` the buffer is in normal form. -/
structure State.Inv (s : State) : Prop where
  bounded : s.buf.length ≤ Config.BUF_CAP
  decodingNormal : s.st = .decoding → markerFirst s.buf = true

/-- The stronger invariant of runs without a cancel (R174, R178, R179): between `READ`s the buffer is empty,
and `FILLING` is entered with fewer than 14 bytes in normal form. -/
structure State.UncancelledInv (s : State) : Prop extends s.Inv where
  idleEmpty : s.st = .idle → s.buf = []
  fillingShort : s.st = .filling → s.buf.length < Config.FRAME_LEN
  fillingNormal : s.st = .filling → markerFirst s.buf = true

/-- The host cancels in this event, at the transaction level or on the pin `rd_cancel` (R170, R46). -/
def Event.cancels : Event → Bool
  | .op .cancel => true
  | .clock p => p.rdCancel
  | _ => false

/-- The framer is reset in this event, at the transaction level or on the pin `rst` (R240). -/
def Event.resets : Event → Bool
  | .reset => true
  | .clock p => p.rst
  | _ => false

/-- The payloads delivered to the host in the next `k` steps, in order (R165, R182). -/
def deliveries : Nat → State → List Payload
  | 0, _ => []
  | k + 1, s =>
    match step s with
    | .next t => t.delivery.toList ++ deliveries k t
    | _ => []

/-- The operations of the Packet Decoder's side: the frame patterns, the parts of `PARSE`, and the test
helper (R96). -/
def decoderSide : Instr → Bool
  | .valid _ => true
  | .invalid _ => true
  | .chks _ => true
  | .chke _ => true
  | .csum _ => true
  | .ccmp _ _ => true
  | .keyd _ => true
  | .xdec _ _ => true
  | .parse _ => true
  | .encode _ _ _ => true
  | .read => false
  | .fill _ => false
  | .resync0 => false
  | .tryDecode => false
  | .resync1 => false
  | .returnPayload => false
  | .cancel => false

end Sys2Proof.Machine
end

