-- ==== Sys2Proof/Certificates/Slice0/Obligations.lean ====
section
/-! DEFINITION. The statements for the provers. Each docstring names the rule it formalises. "The schedule"
is the field `events`; the fields `result` and `delivery` are the model's observation of what the step just
taken put out (log 4). -/

open Sys2Proof Sys2Proof.Machine

/-! ### Reset -/

/-- R50: after reset `BUF` is empty (`LEN = 0`) and `ST = IDLE`, and the ports read as R50's table says,
whatever is on the pins. -/
def Obligations.ResetStateIsIdleWithEmptyBuffer : Prop :=
  State.reset.buf = [] ∧ State.reset.len = 0 ∧ State.reset.st = .idle ∧ State.reset.busy = false ∧
    State.reset.reqN = 14#4 ∧
    ∀ p, State.reset.inReady p = false ∧ State.reset.outValid p = false

/-- R240, R242, R243: reset, at the transaction level or on the pin `rst` with anything else asserted, takes
every state to `BUF` empty and `ST = IDLE`, gives no `out_valid` and does not reach the byte source. That a
byte offered in the very cycle of `rst` stays at the source is the model's reading (log 8). -/
def Obligations.ResetEmptiesTheFramerOnly : Prop :=
  ∀ (s : State) (es : List Event) (e : Event) (p : Pins), p.rst = true → e = .reset ∨ e = .clock p →
    step { s with events := e :: es } =
        .next { s with events := es, buf := [], st := .idle, delivery := none, result := none } ∧
      s.outValid p = false

/-! ### The Packet Decoder: its parts -/

/-- R120, R121: `CHKS` and `CHKE` compare all 8 bits of frame bytes 0 and 13 and write nothing. -/
def Obligations.MarkerChecksCompareTheirByte : Prop :=
  ∀ (f : Frame) (s : State),
    exec (.chks f) s = .next { s with result := some (.condition (decide (f[0] = 0x02#8))) } ∧
      exec (.chke f) s = .next { s with result := some (.condition (decide (f[13] = 0x03#8))) }

/-- R122: `CSUM` adds the ten raw bytes 1 to 10 as natural numbers; the sum fits in 12 bits. -/
def Obligations.ByteSumAddsBytesOneToTen : Prop :=
  ∀ (f : Frame) (s : State), ∃ n : Nat,
    exec (.csum f) s = .next { s with result := some (.sum n) } ∧
      n = f[1].toNat + f[2].toNat + f[3].toNat + f[4].toNat + f[5].toNat + f[6].toNat + f[7].toNat +
        f[8].toNat + f[9].toNat + f[10].toNat ∧
      n ≤ 2550 ∧ n < 2 ^ 12

/-- R127: the sum cannot overflow, so reducing it modulo 65536 (or keeping 12 bits of it) changes no
comparison. -/
def Obligations.ChecksumSumNeverOverflows : Prop :=
  ∀ (f : Frame) (s t : State), exec (.csum f) s = .next t → ∃ n : Nat, t.result = some (.sum n) ∧
    n ≤ 2550 ∧ exec (.ccmp (n % 65536) f) s = exec (.ccmp n f) s ∧
      exec (.ccmp (n % 4096) f) s = exec (.ccmp n f) s

/-- R123: `CCMP` is exact equality of the sum with the big-endian field of bytes 11 and 12. -/
def Obligations.ChecksumComparisonIsExact : Prop :=
  ∀ (n : Nat) (f : Frame) (s : State),
    exec (.ccmp n f) s =
      .next { s with result := some (.condition (decide (n = 256 * f[11].toNat + f[12].toNat))) }

/-- R124: `KEYD` answers byte 1 XOR 0x26, which is byte 1 with bits 5, 2 and 1 inverted; the map is a
bijection on bytes. -/
def Obligations.KeyIsRawKeyWithThreeBitsInverted : Prop :=
  (∀ (f : Frame) (s : State), exec (.keyd f) s = .next { s with result := some (.key (f[1] ^^^ 0x26#8)) }) ∧
    (∀ (b : Byte) (j : Nat), j < 8 →
      (b ^^^ 0x26#8).getLsbD j = (b.getLsbD j != decide (j = 5 ∨ j = 2 ∨ j = 1))) ∧
    Function.Bijective fun b : Byte => b ^^^ 0x26#8

/-- R125: `XDEC` decodes the eight lanes independently with one key, in the original order; byte 2 feeds no
lane. -/
def Obligations.XorDecodeLanes : Prop :=
  ∀ (key : Byte) (f : Frame) (s : State), ∃ p : Payload,
    exec (.xdec key f) s = .next { s with result := some (.lanes p) } ∧
      ∀ (i : Nat) (h : i < 8), p[i] = f[3 + i]'(by change _ < 14; omega) ^^^ key

/-! ### The Packet Decoder: the whole function -/

/-- R126: `PARSE` of a candidate answers, from its first 14 bytes and nothing else, `Valid` of the eight
decoded bytes when the three checks hold and `Invalid` otherwise, and writes no state. What stands on the
decoder's frame port afterwards is left open here (log 12). -/
def Obligations.ParseDecodesExactlyTheValidFrames : Prop :=
  ∀ (f : Frame) (rest : List Byte) (s : State), ∃ w : BitVec 112,
    (ValidFrame f → exec (.parse (f.toList ++ rest)) s =
      .next { s with frame := w, result := some (.verdict (.valid (decodedLanes f))) }) ∧
    (¬ ValidFrame f → exec (.parse (f.toList ++ rest)) s =
      .next { s with frame := w, result := some (.verdict .invalid) })

/-- R64: a candidate of fewer than 14 bytes has no result at all; of a longer one only the first 14 bytes
are examined. -/
def Obligations.ParseRefusesShortCandidates : Prop :=
  ∀ (c : List Byte) (s : State),
    (c.length < 14 → exec (.parse c) s = .refused .shortCandidate) ∧
      (14 ≤ c.length → exec (.parse c) s = exec (.parse (c.take 14)) s ∧
        ∃ t, exec (.parse c) s = .next t)

/-- R97: a frame of the row `VALID` is one that meets the three conditions and its payload is returned; every
other frame is of the row `INVALID` and gives `Invalid`. There is no third class. What stands on the decoder's
frame port afterwards is left open here (log 12). -/
def Obligations.FrameRowsAnswerTheirVerdict : Prop :=
  ∀ (f : Frame) (s : State), ∃ w : BitVec 112,
    (ValidFrame f → WellFormed (.valid f) ∧ ¬ WellFormed (.invalid f) ∧
      exec (.valid f) s =
        .next { s with frame := w, result := some (.verdict (.valid (decodedLanes f))) }) ∧
    (¬ ValidFrame f → WellFormed (.invalid f) ∧ ¬ WellFormed (.valid f) ∧
      exec (.invalid f) s = .next { s with frame := w, result := some (.verdict .invalid) })

/-- R45: at every instant with the frame `F` on the port, `valid = 1` and `payload = pack(P)` when `PARSE(F)`
is `Valid(P)`, and `valid = 0` and `payload = 0` otherwise. -/
def Obligations.DecoderPortShowsItsVerdict : Prop :=
  ∀ (f : Frame) (t : State), t.frame = packFrame f →
    (ValidFrame f → t.pdValid = true ∧ t.pdPayload = packPayload (decodedLanes f)) ∧
      (¬ ValidFrame f → t.pdValid = false ∧ t.pdPayload = 0#64)

/-- R98 (derived there): any ten bytes 1 to 10 are completed to a valid frame in exactly one way, and a
valid frame has a checksum of at most 0x09F6. -/
def Obligations.TenBytesHaveOneValidCompletion : Prop :=
  (∀ r : Vector Byte 10, ∃! f : Frame, parse f ≠ .invalid ∧
      ∀ (i : Nat) (h : i < 10), f[i + 1]'(by change _ < 14; omega) = r[i]) ∧
    ∀ f : Frame, parse f ≠ .invalid →
      f[11].toNat ≤ 0x09 ∧ (f[11].toNat = 0x09 → f[12].toNat ≤ 0xF6)

/-- R131: the frame `ENCODE` builds, byte by byte. -/
def Obligations.EncodeBuildsTheSendersFrame : Prop :=
  ∀ (k nlv : Byte) (p : Payload) (s : State), ∃ f : Frame,
    exec (.encode k nlv p) s = .next { s with result := some (.frame f) } ∧
      f[0] = 0x02#8 ∧ f[1] = k ^^^ 0x26#8 ∧ f[2] = nlv ^^^ k ∧
      (∀ (i : Nat) (h : i < 8), f[3 + i]'(by change _ < 14; omega) = p[i] ^^^ k) ∧
      (∃ n : Nat, n = f[1].toNat + f[2].toNat + f[3].toNat + f[4].toNat + f[5].toNat + f[6].toNat +
          f[7].toNat + f[8].toNat + f[9].toNat + f[10].toNat ∧
        f[11].toNat = n / 256 ∧ f[12].toNat = n % 256) ∧
      f[13] = 0x03#8

/-- R132: parsing what `ENCODE` builds gives the payload back, for every key, clear byte 2 and payload; and
every valid frame is what `ENCODE` builds from exactly one triple, the one its own key gives. -/
def Obligations.EncodeThenParseRoundTrip : Prop :=
  (∀ (k nlv : Byte) (p : Payload), parse (encodeFrame k nlv p) = .valid p) ∧
    ∀ (f : Frame), parse f ≠ .invalid → ∀ (k nlv : Byte) (p : Payload),
      encodeFrame k nlv p = f ↔
        k = f[1] ^^^ 0x26#8 ∧ nlv = f[2] ^^^ k ∧ parse f = .valid p

/-- R133: ten bytes with their sum as checksum and the right markers decode; inverting any one of the 112
bits of a valid frame makes it `Invalid`. -/
def Obligations.AnySingleBitErrorIsDetected : Prop :=
  (∀ r : Vector Byte 10, parse (closeFrame r) ≠ .invalid) ∧
    ∀ (f : Frame), parse f ≠ .invalid → ∀ j : Nat, j < 112 →
      parse (unpackFrame (packFrame f ^^^ (1#112 <<< j))) = .invalid

/-- R134: two of the bytes 1 to 10 exchanged, or one raised and another lowered by the same amount, leave a
valid frame valid. -/
def Obligations.ExchangedOrCompensatedBytesAreNotDetected : Prop :=
  ∀ (f g : Frame) (i j : Fin 14), 1 ≤ i.val → i.val ≤ 10 → 1 ≤ j.val → j.val ≤ 10 → i ≠ j →
    parse f ≠ .invalid → (∀ n : Fin 14, n ≠ i → n ≠ j → g[n] = f[n]) →
    ((g[i] = f[j] ∧ g[j] = f[i]) ∨
      ∃ d : Nat, g[i].toNat = f[i].toNat + d ∧ g[j].toNat + d = f[j].toNat) →
    parse g ≠ .invalid

/-- R130: the decoder's side depends on nothing but its operands, and writes no state of the framer and no
event of the host. That the frame rows and `PARSE` drive the 14 bytes examined onto the decoder's port, and
nothing else of the decoder's side does, is the model's reading (log 12). -/
def Obligations.DecoderSideIsPure : Prop :=
  (∀ (i : Instr) (s s' t : State), decoderSide i = true → exec i s = .next t →
    (∃ t', exec i s' = .next t' ∧ t'.result = t.result) ∧
      t.buf = s.buf ∧ t.st = s.st ∧ t.source = s.source ∧ t.events = s.events ∧ t.delivery = s.delivery) ∧
    (∀ (i : Instr) (s t : State), exec i s = .next t →
      t.frame = s.frame ∨ ∃ (f : Frame) (rest : List Byte),
        i = .valid f ∨ i = .invalid f ∨ i = .parse (f.toList ++ rest)) ∧
    ∀ (f : Frame) (rest : List Byte) (s : State), ∃ t u v, exec (.valid f) s = .next t ∧
      exec (.invalid f) s = .next u ∧ exec (.parse (f.toList ++ rest)) s = .next v ∧
      t.frame = packFrame f ∧ u.frame = packFrame f ∧ v.frame = packFrame f

/-! ### Ports and encodings -/

/-- R18: `F[i]` lies on bits `[111-8*i : 104-8*i]` of the frame port and `P[i]` on bits
`[63-8*i : 56-8*i]` of the payload port, and both packings lose nothing. -/
def Obligations.PackedPortsCarryBytesHighFirst : Prop :=
  (∀ (f : Frame) (i : Nat) (h : i < 14), (packFrame f).extractLsb' (104 - 8 * i) 8 = f[i]) ∧
    (∀ (p : Payload) (i : Nat) (h : i < 8), (packPayload p).extractLsb' (56 - 8 * i) 8 = p[i]) ∧
    (∀ f, unpackFrame (packFrame f) = f) ∧ (∀ w, packFrame (unpackFrame w) = w) ∧
    (∀ p, unpackPayload (packPayload p) = p) ∧ ∀ w, packPayload (unpackPayload w) = w

/-- R106: the 2-bit codes of `ST`; every code is one state's. -/
def Obligations.StateCodesAreTheSpecs : Prop :=
  St.idle.code = 0b00#2 ∧ St.filling.code = 0b01#2 ∧ St.resyncing.code = 0b10#2 ∧
    St.decoding.code = 0b11#2 ∧ (∀ x, St.ofCode x.code = x) ∧ ∀ c, (St.ofCode c).code = c

/-- R107: a frame is classified `VALID` exactly when its masked bits match the row and the checksum
relation holds, and `INVALID` otherwise; the classifier and `PARSE` agree. -/
def Obligations.ClassifierFollowsMaskAndConstraint : Prop :=
  ∀ f : Frame,
    (packFrame f &&& 0xFF000000000000000000000000FF#112 = 0x0200000000000000000000000003#112 ∧
        256 * f[11].toNat + f[12].toNat =
          f[1].toNat + f[2].toNat + f[3].toNat + f[4].toNat + f[5].toNat + f[6].toNat + f[7].toNat +
            f[8].toNat + f[9].toNat + f[10].toNat →
      classify f = .valid f ∧ parse f ≠ .invalid) ∧
    (¬ (packFrame f &&& 0xFF000000000000000000000000FF#112 = 0x0200000000000000000000000003#112 ∧
        256 * f[11].toNat + f[12].toNat =
          f[1].toNat + f[2].toNat + f[3].toNat + f[4].toNat + f[5].toNat + f[6].toNat + f[7].toNat +
            f[8].toNat + f[9].toNat + f[10].toNat) →
      classify f = .invalid f ∧ parse f = .invalid)

/-- Decode and encode agree, both ways: the bytes of every well-formed operation that has bits decode to it
with whatever follows left over, and whatever decodes is a well-formed operation followed by what is left. -/
def Obligations.DecodeAndEncodeAgree : Prop :=
  (∀ (i : Instr) (ws rest : List Byte), WellFormed i → encode i = some ws →
      decode (ws ++ rest) = .ok (i, rest)) ∧
    ∀ (bytes rest : List Byte) (i : Instr), decode bytes = .ok (i, rest) →
      WellFormed i ∧ ∃ ws, encode i = some ws ∧ bytes = ws ++ rest

/-- R101, R64: the decoder takes every sequence of at least 14 bytes and refuses every shorter one by
name. -/
def Obligations.DecodeIsTotalFromFourteenBytes : Prop :=
  ∀ bytes : List Byte,
    (bytes.length < 14 → decode bytes = .error .shortFrame) ∧
      (14 ≤ bytes.length → ∃ f : Frame, bytes.take 14 = f.toList ∧
        decode bytes = .ok (classify f, bytes.drop 14))

/-- Frames written out in 95_test_vectors.md decode to their row: V1, V4 and V5 of section 2.1 are valid, V9
(one checksum bit), V14 (checksum bytes exchanged) and V17 (a modulo-256 sum) of section 2.2 are not. -/
def Obligations.SpecFrameWordsDecodeToTheirRow : Prop :=
  decodeTableWord 112 0x02200C3636363734283506019C03 =
      some (.valid #v[0x02, 0x20, 0x0C, 0x36, 0x36, 0x36, 0x37, 0x34, 0x28, 0x35, 0x06, 0x01, 0x9C, 0x03]) ∧
    decodeTableWord 112 0x0200000000000000000000000003 =
      some (.valid #v[0x02, 0, 0, 0, 0, 0, 0, 0, 0, 0, 0, 0, 0, 0x03]) ∧
    decodeTableWord 112 0x02FFFFFFFFFFFFFFFFFFFF09F603 =
      some (.valid #v[0x02, 0xFF, 0xFF, 0xFF, 0xFF, 0xFF, 0xFF, 0xFF, 0xFF, 0xFF, 0xFF, 0x09, 0xF6, 0x03]) ∧
    decodeTableWord 112 0x02200C3636363734283506019D03 =
      some (.invalid #v[0x02, 0x20, 0x0C, 0x36, 0x36, 0x36, 0x37, 0x34, 0x28, 0x35, 0x06, 0x01, 0x9D, 0x03]) ∧
    decodeTableWord 112 0x02200C36363637342835069C0103 =
      some (.invalid #v[0x02, 0x20, 0x0C, 0x36, 0x36, 0x36, 0x37, 0x34, 0x28, 0x35, 0x06, 0x9C, 0x01, 0x03]) ∧
    decodeTableWord 112 0x02FF010000000000000000000003 =
      some (.invalid #v[0x02, 0xFF, 0x01, 0, 0, 0, 0, 0, 0, 0, 0, 0, 0, 0x03])

/-! ### Steps -/

/-- A step runs the operation the environment puts before it: a decoded frame on the decoder's port, or a
named operation. Around it the step takes the event off the schedule and ends the outputs of the step
before; nothing else. -/
def Obligations.StepRunsTheOperationPutBeforeIt : Prop :=
  (∀ (s : State) (w : BitVec 112) (es : List Event) (i : Instr) (rest : List Byte),
      decode (unpackFrame w).toList = .ok (i, rest) → WellFormed i →
      step { s with events := .present w :: es } =
        exec i { s with events := es, delivery := none, result := none } ∧ rest = []) ∧
    ∀ (s : State) (es : List Event) (i : Instr),
      step { s with events := .op i :: es } = exec i { s with events := es, delivery := none, result := none }

/-- A step in which the environment does nothing takes the step `ST` calls for (R172), and holds in `IDLE`
and in `FILLING` while the source has not answered. That a request for 0 bytes needs no answer is the
choice R68 allows (log 14). -/
def Obligations.QuietStepTakesWhatTheControlStateCallsFor : Prop :=
  ∀ (s t : State), (∃ es, s.events = .quiet :: es ∧ t = { s with events := es, delivery := none, result := none }) ∨
      (s.events = [] ∧ t = { s with delivery := none, result := none }) →
    (s.st = .idle → step s = .next t) ∧
    (s.st = .filling → s.buf.length < 14 → step s = .next t) ∧
    (s.st = .filling → 14 ≤ s.buf.length → step s = exec (.fill 0) t) ∧
    (s.st = .resyncing → step s = exec .resync0 t) ∧
    (s.st = .decoding → step s = exec .tryDecode t)

/-- R217, R200: no operation and no step faults, and the only refusal is `PARSE` of fewer than 14 bytes. -/
def Obligations.OnlyShortParseStopsTheMachine : Prop :=
  (∀ (i : Instr) (s : State), (∃ t, exec i s = .next t) ∨
      (∃ c : List Byte, i = .parse c ∧ c.length < 14 ∧ exec i s = .refused .shortCandidate)) ∧
    ∀ s : State, (∃ t, step s = .next t) ∨
      (∃ (c : List Byte) (es : List Event), s.events = .op (.parse c) :: es ∧ c.length < 14 ∧
        step s = .refused .shortCandidate)

/-! ### The Stream Framer: its operations -/

/-- R160: `READ` in `IDLE` goes to `FILLING` and keeps whatever an earlier cancelled `READ` left in `BUF`;
while a `READ` is in progress another one is ignored. -/
def Obligations.ReadStartsFilling : Prop :=
  ∀ s : State, (s.st = .idle → exec .read s = .next { s with st := .filling }) ∧
    (s.st ≠ .idle → exec .read s = .next s)

/-- R161: `FILL` appends the `m` bytes the source answers the request for `14 - LEN` with, in order, and
goes to `RESYNCING` whatever `m` is. -/
def Obligations.FillAppendsTheAnswer : Prop :=
  ∀ (s : State) (m : Nat), s.st = .filling → m ≤ 14 - s.buf.length → m ≤ s.source.length →
    exec (.fill m) s = .next { s with
      buf := s.buf ++ s.source.take m
      source := s.source.drop m
      st := .resyncing }

/-- `FILL` for every choice `m` of the oracle, within the contract of R66 or outside it: exactly
`min m (14 - LEN)` bytes leave the front of the source and join the end of `BUF` (all the source holds, when
it holds fewer), and `LEN <= 14` is kept (R176). The cut of a choice outside the contract is the model's
choice (log 5). With a full buffer the request is for 0 bytes, and `BUF` and the source are as they were
(R68, R179). -/
def Obligations.FillNeverExceedsTheContract : Prop :=
  ∀ (s : State) (m : Nat), s.st = .filling →
    ∃ t : State, exec (.fill m) s = .next t ∧
      t = { s with
        buf := s.buf ++ s.source.take (min m (14 - s.buf.length))
        source := s.source.drop (min m (14 - s.buf.length))
        st := .resyncing } ∧
      (s.buf.length ≤ 14 → t.buf.length ≤ 14) ∧
      (14 ≤ s.buf.length → t.buf = s.buf ∧ t.source = s.source)

/-- R162: `RESYNC0` discards exactly the bytes before the first start marker, or all of them when there is
none, and goes to `DECODING`. -/
def Obligations.ResyncDiscardsUpToTheFirstMarker : Prop :=
  ∀ s : State, s.st = .resyncing → ∃ lost kept : List Byte,
    s.buf = lost ++ kept ∧ 0x02#8 ∉ lost ∧ (kept = [] ∨ ∃ more, kept = 0x02#8 :: more) ∧
      exec .resync0 s = .next { s with buf := kept, st := .decoding }

/-- R163: `TRY` with `LEN < 14` goes back to `FILLING` and changes nothing else; with `LEN >= 14` it does
`RETURN` on the verdict `Valid` of the first 14 bytes and `RESYNC1` on `Invalid`. -/
def Obligations.TryFollowsTheVerdict : Prop :=
  ∀ s : State, s.st = .decoding →
    (s.buf.length < 14 → exec .tryDecode s = .next { s with st := .filling }) ∧
    ∀ (f : Frame) (more : List Byte), s.buf = f.toList ++ more →
      (∀ p, parse f = .valid p → exec .tryDecode s = exec .returnPayload s) ∧
      (parse f = .invalid → exec .tryDecode s = exec .resync1 s)

/-- R164: on `Invalid` the marker just tried and everything before the next start marker at offset 1 or
above are discarded, or the whole buffer when there is none; `ST` stays `DECODING` and nothing is put out.
It is the same step as `TRY`'s. -/
def Obligations.FailedAttemptDiscardsUpToTheNextMarker : Prop :=
  ∀ (s : State) (f : Frame) (more : List Byte), s.st = .decoding → s.buf = f.toList ++ more →
    parse f = .invalid → ∃ (b : Byte) (lost kept : List Byte),
      s.buf = b :: lost ++ kept ∧ 0x02#8 ∉ lost ∧ (kept = [] ∨ ∃ more', kept = 0x02#8 :: more') ∧
        exec .resync1 s = .next { s with buf := kept } ∧ exec .tryDecode s = .next { s with buf := kept }

/-- R165: on `Valid(P)` the first 14 bytes are consumed, `P` is delivered to the host and the `READ` ends in
`IDLE`; bytes beyond the 14th stay. It is the same step as `TRY`'s. -/
def Obligations.ReturnDeliversThePayload : Prop :=
  ∀ (s : State) (f : Frame) (more : List Byte), s.st = .decoding → s.buf = f.toList ++ more →
    ValidFrame f →
      exec .returnPayload s = .next { s with buf := more, st := .idle, delivery := some (decodedLanes f) } ∧
      exec .tryDecode s = .next { s with buf := more, st := .idle, delivery := some (decodedLanes f) }

/-- R170: `CANCEL` outside `IDLE` goes to `IDLE`, keeps `BUF`, takes no byte from the source and delivers
nothing. -/
def Obligations.CancelKeepsTheBuffer : Prop :=
  ∀ s : State, s.st ≠ .idle → exec .cancel s = .next { s with st := .idle }

/-- The model's reading of R172 (log 3): an operation of the framer has no step where its enabling condition
fails, so the state stays as it is. -/
def Obligations.DisabledOperationsHold : Prop :=
  ∀ s : State,
    (∀ m, s.st ≠ .filling → exec (.fill m) s = .next s) ∧
    (s.st ≠ .resyncing → exec .resync0 s = .next s) ∧
    (s.st ≠ .decoding → exec .tryDecode s = .next s ∧ exec .resync1 s = .next s ∧
      exec .returnPayload s = .next s) ∧
    (s.st = .idle → exec .cancel s = .next s) ∧
    (s.buf.length < 14 → exec .resync1 s = .next s ∧ exec .returnPayload s = .next s) ∧
    ∀ (f : Frame) (more : List Byte), s.buf = f.toList ++ more →
      (parse f = .invalid → exec .returnPayload s = .next s) ∧
      (parse f ≠ .invalid → exec .resync1 s = .next s)

/-! ### The Stream Framer: every step -/

/-- R32, R83: whatever a step does, `BUF` changes only by bytes of the front of the source joining its end or
by bytes leaving its front, and the source changes only by those bytes leaving its front or by the bytes the
event `arrive` brings joining its end; a byte is in one place at a time and none goes back. Reset empties
`BUF` (R240) and leaves the source. -/
def Obligations.BufferChangesOnlyByAppendOrTrim : Prop :=
  ∀ s t : State, step s = .next t →
    (∃ m : Nat, m ≤ 14 - s.buf.length ∧ t.buf = s.buf ++ s.source.take m ∧ t.source = s.source.drop m ∧
        s.nextEvent.bytes = []) ∨
      ∃ k : Nat, k ≤ s.buf.length ∧ t.buf = s.buf.drop k ∧ t.source = s.source ++ s.nextEvent.bytes

/-- R165, R42: a payload is delivered only by the step that finds a valid frame at the front of `BUF` in
`DECODING`, consumes it and ends the `READ`. -/
def Obligations.DeliveryOnlyOfAValidBufferedFrame : Prop :=
  ∀ (s t : State) (p : Payload), step s = .next t → t.delivery = some p →
    s.st = .decoding ∧ t.st = .idle ∧
      ∃ f : Frame, s.buf = f.toList ++ t.buf ∧ ValidFrame f ∧ p = decodedLanes f

/-- R166: from `FILLING`, `RESYNCING` and `DECODING` the only ways out of the `READ` are a `RETURN`, a
`CANCEL` and reset. -/
def Obligations.ReadEndsOnlyByReturnCancelOrReset : Prop :=
  ∀ s t : State, step s = .next t → s.st ≠ .idle → t.st = .idle →
    t.delivery.isSome = true ∨ s.nextEvent.cancels = true ∨ s.nextEvent.resets = true

/-- R30, R52: what is driven on the decoder's port, and what was put out before, make no difference to the
framer, its host or its source. -/
def Obligations.FramerIgnoresTheDecoderPort : Prop :=
  ∀ (s t : State) (w : BitVec 112) (r : Option Result) (d : Option Payload), step s = .next t →
    ∃ t', step { s with frame := w, result := r, delivery := d } = .next t' ∧ t'.buf = t.buf ∧ t'.st = t.st ∧
      t'.source = t.source ∧ t'.events = t.events ∧ t'.delivery = t.delivery

/-- R174, R176: every step keeps `LEN <= 14` and, in `DECODING`, a buffer that is empty or begins with a
start marker, from every state that has both. -/
def Obligations.EveryStepKeepsBoundAndNormalForm : Prop :=
  ∀ s t : State, s.Inv → step s = .next t → t.Inv

/-- R178, R179, R174: every step in which the host does not cancel keeps the states of uncancelled `READ`s:
`BUF` empty in `IDLE`, and in `FILLING` fewer than 14 bytes that begin with a start marker. -/
def Obligations.UncancelledStepKeepsReadBoundaries : Prop :=
  ∀ s t : State, s.UncancelledInv → s.nextEvent.cancels = false → step s = .next t → t.UncancelledInv

/-- Both invariants hold after reset (R50). -/
def Obligations.InvariantsHoldAfterReset : Prop :=
  State.reset.Inv ∧ State.reset.UncancelledInv

/-- R175: inside the framer the first check never fails: a candidate of the framer begins with the start
marker, and an `Invalid` one fails the end marker or the checksum. -/
def Obligations.FramerCandidatesBeginWithTheMarker : Prop :=
  ∀ (s : State) (f : Frame), s.Inv → s.st = .decoding → s.candidate = some f →
    f[0] = 0x02#8 ∧
      (parse f = .invalid → f[13] ≠ 0x03#8 ∨
        256 * f[11].toNat + f[12].toNat ≠
          f[1].toNat + f[2].toNat + f[3].toNat + f[4].toNat + f[5].toNat + f[6].toNat + f[7].toNat +
            f[8].toNat + f[9].toNat + f[10].toNat)

/-- R177: with `BUF` in normal form and `LEN < 14`, `FILL` with a 0-byte answer, `RESYNC0` and `TRY` bring
the machine back to `FILLING` with the same `BUF` and the same source. -/
def Obligations.EmptyAnswerChangesNothing : Prop :=
  ∀ (s : State) (es : List Event), s.st = .filling → s.buf.length < 14 → markerFirst s.buf = true →
    core.run 3 { s with events := .op (.fill 0) :: .quiet :: .quiet :: es } =
      .next { s with events := es, delivery := none, result := none }

/-- R180: after a failed attempt `LEN <= 13`, and the next `TRY` goes to `FILLING`. -/
def Obligations.AtMostOneAttemptPerFill : Prop :=
  ∀ s t : State, s.buf.length ≤ 14 → s.st = .decoding → exec .tryDecode s = .next t → t.st = .decoding →
    t.buf.length ≤ 13 ∧ exec .tryDecode t = .next { t with st := .filling }

/-- R190: with a one-byte answer and a buffer in normal form, `FILL` and `RESYNC0` together drop the byte
when `BUF` is empty and the byte is no start marker, and otherwise append it and trim nothing. -/
def Obligations.OneByteFillAndResyncShortcut : Prop :=
  ∀ (s : State) (b : Byte) (more : List Byte) (es : List Event), s.st = .filling → s.buf.length < 14 →
    markerFirst s.buf = true → s.source = b :: more →
    core.run 2 { s with events := .op (.fill 1) :: .quiet :: es } =
      .next { s with
        buf := if s.buf = [] ∧ b ≠ 0x02#8 then [] else s.buf ++ [b]
        source := more
        st := .decoding
        events := es
        delivery := none
        result := none }

/-! ### The ports of the framer -/

/-- R48 and the `busy` of R46: `in_ready` is 1 exactly when `ST = FILLING`, `LEN < 14` and `rd_cancel = 0`,
`req_n` is `14 - LEN`, and `busy` is 1 exactly when `ST != IDLE`. -/
def Obligations.FramerOutputPins : Prop :=
  ∀ (s : State) (p : Pins),
    (s.busy = true ↔ s.st ≠ .idle) ∧
    (s.inReady p = true ↔ s.st = .filling ∧ s.buf.length < 14 ∧ p.rdCancel = false) ∧
    s.reqN.toNat = 14 - s.buf.length

/-- R46, R47: `out_valid` is 1 exactly in the cycles whose edge takes a `RETURN`, and `out_payload` is then
the packed payload delivered; in every other cycle there is no value to read. -/
def Obligations.OutValidMarksTheReturnCycle : Prop :=
  ∀ (s t : State) (p : Pins) (es : List Event), step { s with events := .clock p :: es } = .next t →
    (s.outValid p = true ↔ t.delivery.isSome = true) ∧ s.outPayload p = t.delivery.map packPayload

/-- R188: the port-level machine, row by row, at a clock edge with `rst = 0` and `LEN <= 14`. -/
def Obligations.ClockEdgeFollowsThePortTable : Prop :=
  ∀ (s : State) (p : Pins) (es : List Event), p.rst = false → s.buf.length ≤ 14 →
    let u : State := { s with events := es, delivery := none, result := none }
    let edge := step { s with events := .clock p :: es }
    let due := s.st = .decoding ∧ ∃ f : Frame, s.buf = f.toList ∧ ValidFrame f
    (s.inReady p = true ↔ s.st = .filling ∧ s.buf.length < 14 ∧ p.rdCancel = false) ∧
    (s.outValid p = true ↔ due) ∧
    (s.st = .idle → p.rdReq = true → edge = .next { u with st := .filling }) ∧
    (s.st = .idle → p.rdReq = false → edge = .next u) ∧
    (∀ f : Frame, s.st = .decoding → s.buf = f.toList → ValidFrame f →
      edge = .next { u with buf := [], st := .idle, delivery := some (decodedLanes f) } ∧
        s.outPayload p = some (packPayload (decodedLanes f))) ∧
    (s.st ≠ .idle → ¬ due → p.rdCancel = true → edge = .next { u with st := .idle }) ∧
    (s.st = .filling → p.rdCancel = false → s.buf.length = 14 → edge = .next { u with st := .resyncing }) ∧
    (∀ (b : Byte) (more : List Byte), s.st = .filling → p.rdCancel = false → s.buf.length < 14 →
      p.inValid = true → s.source = b :: more →
      edge = .next { u with buf := s.buf ++ [b], source := more, st := .resyncing }) ∧
    (s.st = .filling → p.rdCancel = false → s.buf.length < 14 → p.inValid = false → edge = .next u) ∧
    (s.st = .resyncing → p.rdCancel = false → edge = exec .resync0 u) ∧
    (s.st = .decoding → p.rdCancel = false → s.buf.length < 14 → edge = .next { u with st := .filling }) ∧
    (∀ f : Frame, s.st = .decoding → p.rdCancel = false → s.buf = f.toList → ¬ ValidFrame f →
      edge = exec .resync1 u)

/-- R189: every clock edge with `rst = 0` is a step of the transaction-level machine, in which the source
answers with exactly one byte (or with none to a request for none), or no step at all. -/
def Obligations.PortLevelRefinesTransactionLevel : Prop :=
  ∀ (s : State) (p : Pins) (es : List Event), p.rst = false →
    step { s with events := .clock p :: es } =
        .next { s with events := es, delivery := none, result := none } ∨
      ∃ i : Instr,
        step { s with events := .clock p :: es } = step { s with events := .op i :: es } ∧
        (i = .read ∨ i = .resync0 ∨ i = .tryDecode ∨ i = .cancel ∨ (i = .fill 0 ∧ 14 ≤ s.buf.length) ∨
          (i = .fill 1 ∧ s.buf.length < 14 ∧ s.source ≠ []))

/-! ### The stream -/

/-- R181: `SCAN` is the recursion the spec writes: past the bytes before the first start marker, no result
with fewer than 14 bytes from there, the payload of a valid window, and on from the next byte after an
invalid one. -/
def Obligations.ScanIsTheSpecsRecursion : Prop :=
  ∀ bytes : List Byte,
    (0x02#8 ∉ bytes → scan bytes = none) ∧
    ∀ noise more : List Byte, bytes = noise ++ 0x02#8 :: more → 0x02#8 ∉ noise →
      (more.length < 13 → scan bytes = none) ∧
      ∀ (f : Frame) (rest : List Byte), 0x02#8 :: more = f.toList ++ rest →
        (ValidFrame f → scan bytes = some (decodedLanes f, rest)) ∧
        (¬ ValidFrame f → scan bytes = scan more)

/-- R183 (derived there): what `SCAN` returns is the payload of a complete valid window at a start marker,
and every start marker before that window was tried with the 13 bytes after it and was invalid. -/
def Obligations.NoStartMarkerIsSkippedUntried : Prop :=
  ∀ (bytes rest : List Byte) (p : Payload), scan bytes = some (p, rest) →
    ∃ (front : List Byte) (f : Frame), bytes = front ++ f.toList ++ rest ∧ ValidFrame f ∧ p = decodedLanes f ∧
      ∀ i : Nat, i < front.length → bytes[i]? = some 0x02#8 →
        ∃ (g : Frame) (after : List Byte), bytes.drop i = g.toList ++ after ∧ ¬ ValidFrame g

/-- R181, one step at a time: no step but a reset changes what `SCAN` makes of the stream (the bytes held, at
the source and still to arrive), except the `RETURN` that delivers exactly what `SCAN` returns and leaves
exactly what `SCAN` leaves. It holds from every state, cancelled or not, for every choice of the source. -/
def Obligations.EveryStepFollowsTheStreamScan : Prop :=
  ∀ s t : State, s.nextEvent.resets = false → step s = .next t →
    (t.delivery = none ∧ scan t.stream = scan s.stream) ∨
      ∃ p : Payload, t.delivery = some p ∧ scan s.stream = some (p, t.stream)

/-- R182, safety: over any run without a reset, whatever the source answers, whenever the host reads and
cancels and whenever bytes arrive, the payloads delivered are those of the repeated `SCAN` of the stream,
in order; and what is left scans as the framer's stream then does. -/
def Obligations.RunsDeliverTheScannedPayloads : Prop :=
  ∀ (k : Nat) (s : State), (∀ e ∈ s.events, e.resets = false) →
    ∃ left : List Byte, scans (deliveries k s).length s.stream = some (deliveries k s, left) ∧
      ∀ t : State, core.run k s = .next t → scan left = scan t.stream

/-- R182 and R184 together: from `FILLING` with at most 14 bytes held, if `SCAN` of what is held and what the
source holds returns a payload, then every chunking with no empty answer that lets the source deliver
returns that payload and nothing else, and leaves the bytes `SCAN` leaves. -/
def Obligations.EveryChunkingReturnsTheScannedPayload : Prop :=
  ∀ (s : State) (p : Payload) (rest : List Byte) (answers : List Nat), s.st = .filling →
    s.buf.length ≤ 14 → scan (s.buf ++ s.source) = some (p, rest) → (∀ m ∈ answers, 1 ≤ m) →
    s.source.length < answers.length →
    deliveries (4 * answers.length) { s with events := chunked answers } = [p] ∧
      ∃ t : State, core.run (4 * answers.length) { s with events := chunked answers } = .next t ∧
        t.st = .idle ∧ t.buf ++ t.source = rest

/-- R184 on the ports, with the fairness premise R184 asks for: a source that offers a byte in every cycle
ends a `READ` in progress within four cycles a byte and four more, with the payload `SCAN` returns. -/
def Obligations.FairPortRunReturnsTheScannedPayload : Prop :=
  ∀ (s : State) (p : Payload) (rest : List Byte) (cycles : Nat), s.Inv → s.st ≠ .idle →
    scan (s.buf ++ s.source) = some (p, rest) → 4 * s.source.length + 4 ≤ cycles →
    deliveries cycles { s with events := offering cycles } = [p] ∧
      ∃ t : State, core.run cycles { s with events := offering cycles } = .next t ∧
        t.st = .idle ∧ t.buf ++ t.source = rest

/-- R184, the other direction: while `SCAN` of the stream has no result nothing is ever delivered, whatever
host and source do, resets included. -/
def Obligations.NothingIsDeliveredWithoutAScanResult : Prop :=
  ∀ (k : Nat) (s : State), scan s.stream = none → deliveries k s = []

/-- R186 and R187: noise without a start marker followed by one complete valid frame: the noise is discarded
and the frame's payload returned, once all its bytes have arrived, however small the answers; nothing after
the frame is taken. R187 is the case of no noise. -/
def Obligations.GarbagePrefixIsSkippedInAnyChunks : Prop :=
  ∀ (s : State) (noise rest : List Byte) (f : Frame) (answers : List Nat), s.st = .filling → s.buf = [] →
    s.source = noise ++ f.toList ++ rest → 0x02#8 ∉ noise → ValidFrame f → (∀ m ∈ answers, 1 ≤ m) →
    noise.length + 14 ≤ answers.length →
    deliveries (4 * answers.length) { s with events := chunked answers } = [decodedLanes f] ∧
      ∃ t : State, core.run (4 * answers.length) { s with events := chunked answers } = .next t ∧
        t.st = .idle ∧ t.buf = [] ∧ t.source = rest

/-- R185, with its proviso (90_conflicts.md C6): a corrupt frame with right markers followed by a valid one.
When no window that starts at a start marker inside the corrupt frame is itself valid, `SCAN` returns the valid
frame's payload, and a `READ` in progress with `BUF` empty, answered in whatever non-empty pieces, delivers
that payload alone and takes nothing after the frame. Without the proviso, `SCAN` returns what the bytes after
the corrupt frame's own marker return, and that is the first payload any run without a reset delivers. -/
def Obligations.CorruptFrameThenValidFrame : Prop :=
  ∀ (a v : Frame) (rest : List Byte), a[0] = 0x02#8 → a[13] = 0x03#8 → ¬ ValidFrame a → ValidFrame v →
    ((∀ (i : Nat) (g : Frame) (after : List Byte), 1 ≤ i → i < 14 →
        (a.toList ++ v.toList).drop i = g.toList ++ after → g[0] = 0x02#8 → ¬ ValidFrame g) →
      scan (a.toList ++ v.toList ++ rest) = some (decodedLanes v, rest) ∧
      ∀ (s : State) (answers : List Nat), s.st = .filling → s.buf = [] →
        s.source = a.toList ++ v.toList ++ rest → (∀ m ∈ answers, 1 ≤ m) → 28 ≤ answers.length →
        deliveries (4 * answers.length) { s with events := chunked answers } = [decodedLanes v] ∧
          ∃ t : State, core.run (4 * answers.length) { s with events := chunked answers } = .next t ∧
            t.st = .idle ∧ t.buf = [] ∧ t.source = rest) ∧
    scan (a.toList ++ v.toList ++ rest) = scan (a.toList.drop 1 ++ v.toList ++ rest) ∧
    ∀ (k : Nat) (s : State) (p : Payload) (more : List Payload), s.stream = a.toList ++ v.toList ++ rest →
      (∀ e ∈ s.events, e.resets = false) → deliveries k s = p :: more →
      ∃ left : List Byte, scan (a.toList.drop 1 ++ v.toList ++ rest) = some (p, left)
end

