-- ==== Sys2Proof/Laws/State.lean ====
section
/-! SUPPORT. One lemma per field per update of the state, so that no later proof unfolds a record update. -/

namespace Sys2Proof.Machine

open Sys2Proof

@[simp] theorem State.append_buf (s : State) (bs : List Byte) : (s.append bs).buf = s.buf ++ bs := rfl
@[simp] theorem State.append_st (s : State) (bs : List Byte) : (s.append bs).st = s.st := rfl
@[simp] theorem State.append_source (s : State) (bs : List Byte) : (s.append bs).source = s.source := rfl
@[simp] theorem State.append_events (s : State) (bs : List Byte) : (s.append bs).events = s.events := rfl
@[simp] theorem State.append_frame (s : State) (bs : List Byte) : (s.append bs).frame = s.frame := rfl
@[simp] theorem State.append_delivery (s : State) (bs : List Byte) : (s.append bs).delivery = s.delivery := rfl
@[simp] theorem State.append_result (s : State) (bs : List Byte) : (s.append bs).result = s.result := rfl

@[simp] theorem State.trimFront_buf (s : State) (k : Nat) : (s.trimFront k).buf = s.buf.drop k := rfl
@[simp] theorem State.trimFront_st (s : State) (k : Nat) : (s.trimFront k).st = s.st := rfl
@[simp] theorem State.trimFront_source (s : State) (k : Nat) : (s.trimFront k).source = s.source := rfl
@[simp] theorem State.trimFront_events (s : State) (k : Nat) : (s.trimFront k).events = s.events := rfl
@[simp] theorem State.trimFront_frame (s : State) (k : Nat) : (s.trimFront k).frame = s.frame := rfl
@[simp] theorem State.trimFront_delivery (s : State) (k : Nat) : (s.trimFront k).delivery = s.delivery := rfl
@[simp] theorem State.trimFront_result (s : State) (k : Nat) : (s.trimFront k).result = s.result := rfl

@[simp] theorem State.srcRequest_buf (s : State) (n m : Nat) : (s.srcRequest n m).buf = s.buf ++ s.source.take (min m n) := rfl
@[simp] theorem State.srcRequest_st (s : State) (n m : Nat) : (s.srcRequest n m).st = s.st := rfl
@[simp] theorem State.srcRequest_source (s : State) (n m : Nat) : (s.srcRequest n m).source = s.source.drop (min m n) := rfl
@[simp] theorem State.srcRequest_events (s : State) (n m : Nat) : (s.srcRequest n m).events = s.events := rfl
@[simp] theorem State.srcRequest_frame (s : State) (n m : Nat) : (s.srcRequest n m).frame = s.frame := rfl
@[simp] theorem State.srcRequest_delivery (s : State) (n m : Nat) : (s.srcRequest n m).delivery = s.delivery := rfl
@[simp] theorem State.srcRequest_result (s : State) (n m : Nat) : (s.srcRequest n m).result = s.result := rfl

@[simp] theorem State.setSt_buf (s : State) (x : St) : (s.setSt x).buf = s.buf := rfl
@[simp] theorem State.setSt_st (s : State) (x : St) : (s.setSt x).st = x := rfl
@[simp] theorem State.setSt_source (s : State) (x : St) : (s.setSt x).source = s.source := rfl
@[simp] theorem State.setSt_events (s : State) (x : St) : (s.setSt x).events = s.events := rfl
@[simp] theorem State.setSt_frame (s : State) (x : St) : (s.setSt x).frame = s.frame := rfl
@[simp] theorem State.setSt_delivery (s : State) (x : St) : (s.setSt x).delivery = s.delivery := rfl
@[simp] theorem State.setSt_result (s : State) (x : St) : (s.setSt x).result = s.result := rfl

@[simp] theorem State.deliver_buf (s : State) (p : Payload) : (s.deliver p).buf = s.buf.drop 14 := rfl
@[simp] theorem State.deliver_st (s : State) (p : Payload) : (s.deliver p).st = .idle := rfl
@[simp] theorem State.deliver_source (s : State) (p : Payload) : (s.deliver p).source = s.source := rfl
@[simp] theorem State.deliver_events (s : State) (p : Payload) : (s.deliver p).events = s.events := rfl
@[simp] theorem State.deliver_frame (s : State) (p : Payload) : (s.deliver p).frame = s.frame := rfl
@[simp] theorem State.deliver_delivery (s : State) (p : Payload) : (s.deliver p).delivery = some p := rfl
@[simp] theorem State.deliver_result (s : State) (p : Payload) : (s.deliver p).result = s.result := rfl

@[simp] theorem State.answer_buf (s : State) (r : Result) : (s.answer r).buf = s.buf := rfl
@[simp] theorem State.answer_st (s : State) (r : Result) : (s.answer r).st = s.st := rfl
@[simp] theorem State.answer_source (s : State) (r : Result) : (s.answer r).source = s.source := rfl
@[simp] theorem State.answer_events (s : State) (r : Result) : (s.answer r).events = s.events := rfl
@[simp] theorem State.answer_frame (s : State) (r : Result) : (s.answer r).frame = s.frame := rfl
@[simp] theorem State.answer_delivery (s : State) (r : Result) : (s.answer r).delivery = s.delivery := rfl
@[simp] theorem State.answer_result (s : State) (r : Result) : (s.answer r).result = some r := rfl

@[simp] theorem State.drivePort_buf (s : State) (f : Frame) : (s.drivePort f).buf = s.buf := rfl
@[simp] theorem State.drivePort_st (s : State) (f : Frame) : (s.drivePort f).st = s.st := rfl
@[simp] theorem State.drivePort_source (s : State) (f : Frame) : (s.drivePort f).source = s.source := rfl
@[simp] theorem State.drivePort_events (s : State) (f : Frame) : (s.drivePort f).events = s.events := rfl
@[simp] theorem State.drivePort_frame (s : State) (f : Frame) : (s.drivePort f).frame = packFrame f := rfl
@[simp] theorem State.drivePort_delivery (s : State) (f : Frame) : (s.drivePort f).delivery = s.delivery := rfl
@[simp] theorem State.drivePort_result (s : State) (f : Frame) : (s.drivePort f).result = some (.verdict (parse f)) := rfl

@[simp] theorem State.resetFramer_buf (s : State) : s.resetFramer.buf = [] := rfl
@[simp] theorem State.resetFramer_st (s : State) : s.resetFramer.st = .idle := rfl
@[simp] theorem State.resetFramer_source (s : State) : s.resetFramer.source = s.source := rfl
@[simp] theorem State.resetFramer_events (s : State) : s.resetFramer.events = s.events := rfl
@[simp] theorem State.resetFramer_frame (s : State) : s.resetFramer.frame = s.frame := rfl
@[simp] theorem State.resetFramer_delivery (s : State) : s.resetFramer.delivery = s.delivery := rfl
@[simp] theorem State.resetFramer_result (s : State) : s.resetFramer.result = s.result := rfl

@[simp] theorem State.beginStep_buf (s : State) : s.beginStep.buf = s.buf := rfl
@[simp] theorem State.beginStep_st (s : State) : s.beginStep.st = s.st := rfl
@[simp] theorem State.beginStep_source (s : State) : s.beginStep.source = s.source := rfl
@[simp] theorem State.beginStep_events (s : State) : s.beginStep.events = s.events.tail := rfl
@[simp] theorem State.beginStep_frame (s : State) : s.beginStep.frame = s.frame := rfl
@[simp] theorem State.beginStep_delivery (s : State) : s.beginStep.delivery = none := rfl
@[simp] theorem State.beginStep_result (s : State) : s.beginStep.result = none := rfl

@[simp] theorem State.presentNext_buf (s : State) (w : BitVec 112) : (s.presentNext w).buf = s.buf := rfl
@[simp] theorem State.presentNext_st (s : State) (w : BitVec 112) : (s.presentNext w).st = s.st := rfl
@[simp] theorem State.presentNext_source (s : State) (w : BitVec 112) : (s.presentNext w).source = s.source := rfl
@[simp] theorem State.presentNext_events (s : State) (w : BitVec 112) : (s.presentNext w).events = .present w :: s.events := rfl
@[simp] theorem State.presentNext_frame (s : State) (w : BitVec 112) : (s.presentNext w).frame = s.frame := rfl
@[simp] theorem State.presentNext_delivery (s : State) (w : BitVec 112) : (s.presentNext w).delivery = s.delivery := rfl
@[simp] theorem State.presentNext_result (s : State) (w : BitVec 112) : (s.presentNext w).result = s.result := rfl

@[simp] theorem State.withProgram_buf (s : State) (bs : List Byte) (es : List Event) : (s.withProgram bs es).buf = s.buf := rfl
@[simp] theorem State.withProgram_st (s : State) (bs : List Byte) (es : List Event) : (s.withProgram bs es).st = s.st := rfl
@[simp] theorem State.withProgram_source (s : State) (bs : List Byte) (es : List Event) : (s.withProgram bs es).source = bs := rfl
@[simp] theorem State.withProgram_events (s : State) (bs : List Byte) (es : List Event) : (s.withProgram bs es).events = es := rfl
@[simp] theorem State.withProgram_frame (s : State) (bs : List Byte) (es : List Event) : (s.withProgram bs es).frame = s.frame := rfl
@[simp] theorem State.withProgram_delivery (s : State) (bs : List Byte) (es : List Event) : (s.withProgram bs es).delivery = s.delivery := rfl
@[simp] theorem State.withProgram_result (s : State) (bs : List Byte) (es : List Event) : (s.withProgram bs es).result = s.result := rfl

@[simp] theorem State.trimToMarker_st (s : State) (k : Nat) : (s.trimToMarker k).st = s.st := by
  unfold State.trimToMarker; split <;> rfl

@[simp] theorem State.trimToMarker_source (s : State) (k : Nat) : (s.trimToMarker k).source = s.source := by
  unfold State.trimToMarker; split <;> rfl

@[simp] theorem State.trimToMarker_events (s : State) (k : Nat) : (s.trimToMarker k).events = s.events := by
  unfold State.trimToMarker; split <;> rfl

@[simp] theorem State.trimToMarker_frame (s : State) (k : Nat) : (s.trimToMarker k).frame = s.frame := by
  unfold State.trimToMarker; split <;> rfl

@[simp] theorem State.trimToMarker_delivery (s : State) (k : Nat) : (s.trimToMarker k).delivery = s.delivery := by
  unfold State.trimToMarker; split <;> rfl

@[simp] theorem State.trimToMarker_result (s : State) (k : Nat) : (s.trimToMarker k).result = s.result := by
  unfold State.trimToMarker; split <;> rfl

@[simp] theorem State.resyncAfterFailure_source (s : State) : s.resyncAfterFailure.source = s.source := by
  simp [State.resyncAfterFailure]

@[simp] theorem State.resyncAfterFailure_events (s : State) : s.resyncAfterFailure.events = s.events := by
  simp [State.resyncAfterFailure]

@[simp] theorem State.resyncAfterFailure_frame (s : State) : s.resyncAfterFailure.frame = s.frame := by
  simp [State.resyncAfterFailure]

@[simp] theorem State.resyncAfterFailure_delivery (s : State) : s.resyncAfterFailure.delivery = s.delivery := by
  simp [State.resyncAfterFailure]

@[simp] theorem State.resyncAfterFailure_result (s : State) : s.resyncAfterFailure.result = s.result := by
  simp [State.resyncAfterFailure]

@[simp] theorem State.resyncAfterFailure_buf (s : State) :
    s.resyncAfterFailure.buf = (s.trimToMarker 1).buf := rfl

@[simp] theorem State.resyncAfterFailure_st (s : State) : s.resyncAfterFailure.st = .decoding := rfl

@[simp] theorem State.applyEvent_events (s : State) (e : Event) : (s.applyEvent e).events = s.events := by
  cases e <;> first | rfl | (simp only [State.applyEvent]; split <;> rfl)

@[simp] theorem State.applyEvent_frame (s : State) (e : Event) : (s.applyEvent e).frame = s.frame := by
  cases e <;> first | rfl | (simp only [State.applyEvent]; split <;> rfl)

@[simp] theorem State.applyEvent_delivery (s : State) (e : Event) : (s.applyEvent e).delivery = s.delivery := by
  cases e <;> first | rfl | (simp only [State.applyEvent]; split <;> rfl)

@[simp] theorem State.applyEvent_result (s : State) (e : Event) : (s.applyEvent e).result = s.result := by
  cases e <;> first | rfl | (simp only [State.applyEvent]; split <;> rfl)

@[simp] theorem State.len_eq (s : State) : s.len = s.buf.length := rfl

@[simp] theorem State.nextEvent_cons (s : State) (e : Event) (es : List Event) :
    State.nextEvent { s with events := e :: es } = e := rfl

end Sys2Proof.Machine
end

