-- ==== Sys2Proof/Laws/Ops.lean ====
section
/-! SUPPORT. What each shared operation can do, said once: candidates, the parts of `PARSE`, the search for
a marker and the trims. -/

namespace Sys2Proof.Machine

open Sys2Proof

/-! ### Port lanes (R18) -/

/-- The width of a byte as a number `omega` can read. -/
theorem byte_toNat_lt (b : Byte) : b.toNat < 256 := b.isLt

/-- A lane carries its byte on its eight bits. -/
theorem byteLane_in {w low : Nat} (b : Byte) (j : Nat) (h : low + 8 ≤ w) (hj : j < 8) :
    (byteLane w b low).getLsbD (low + j) = b.getLsbD j := by
  simp only [byteLane, BitVec.getLsbD_shiftLeft, BitVec.getLsbD_setWidth]
  simp [show low + j < w by omega, show j < w by omega, -BitVec.getLsbD_eq_getElem]

/-- A lane is zero on every other bit. -/
theorem byteLane_out {w low : Nat} (b : Byte) (n : Nat) (h : n < low ∨ low + 8 ≤ n) :
    (byteLane w b low).getLsbD n = false := by
  simp only [byteLane, BitVec.getLsbD_shiftLeft, BitVec.getLsbD_setWidth]
  rcases h with h | h
  · simp [h]
  · rw [BitVec.getLsbD_of_ge b _ (by simp only [Config.BYTE_BITS]; omega)]; simp

/-- The lanes of a packed frame, one by one. -/
theorem packFrame_lanes (f : Frame) :
    packFrame f =
      byteLane Config.FRAME_BITS f[0] 104 ||| (byteLane Config.FRAME_BITS f[1] 96 |||
        (byteLane Config.FRAME_BITS f[2] 88 ||| (byteLane Config.FRAME_BITS f[3] 80 |||
        (byteLane Config.FRAME_BITS f[4] 72 ||| (byteLane Config.FRAME_BITS f[5] 64 |||
        (byteLane Config.FRAME_BITS f[6] 56 ||| (byteLane Config.FRAME_BITS f[7] 48 |||
        (byteLane Config.FRAME_BITS f[8] 40 ||| (byteLane Config.FRAME_BITS f[9] 32 |||
        (byteLane Config.FRAME_BITS f[10] 24 ||| (byteLane Config.FRAME_BITS f[11] 16 |||
        (byteLane Config.FRAME_BITS f[12] 8 ||| (byteLane Config.FRAME_BITS f[13] 0 |||
        0#_))))))))))))) := rfl

/-- The lanes of a packed payload, one by one. -/
theorem packPayload_lanes (p : Payload) :
    packPayload p =
      byteLane Config.PAY_BITS p[0] 56 ||| (byteLane Config.PAY_BITS p[1] 48 |||
        (byteLane Config.PAY_BITS p[2] 40 ||| (byteLane Config.PAY_BITS p[3] 32 |||
        (byteLane Config.PAY_BITS p[4] 24 ||| (byteLane Config.PAY_BITS p[5] 16 |||
        (byteLane Config.PAY_BITS p[6] 8 ||| (byteLane Config.PAY_BITS p[7] 0 |||
        0#_))))))) := rfl

theorem unpackFrame_get (w : FrameBits) (i : Nat) (h : i < 14) :
    (unpackFrame w)[i] = w.extractLsb' (104 - 8 * i) 8 := by
  simp only [unpackFrame, unpackBytes, Vector.getElem_ofFn, laneLow]
  congr 1
  simp only [Config.FRAME_LEN, Config.BYTE_BITS]
  omega

theorem unpackPayload_get (w : PayloadBits) (i : Nat) (h : i < 8) :
    (unpackPayload w)[i] = w.extractLsb' (56 - 8 * i) 8 := by
  simp only [unpackPayload, unpackBytes, Vector.getElem_ofFn, laneLow]
  congr 1
  simp only [Config.PAY_LEN, Config.BYTE_BITS]
  omega

/-- The numbers R107 prints for the row of the valid frame. -/
theorem validRow_mask : validRow.mask = 0xFF000000000000000000000000FF#112 := by decide

theorem validRow_pattern : validRow.pattern = 0x0200000000000000000000000003#112 := by decide

/-! ### Candidates (R64, R72) -/

/-- A candidate of at least 14 bytes is a frame and what follows it. -/
theorem takeFrame_eq_some_iff (c : List Byte) (f : Frame) :
    takeFrame c = some f ↔ c.take 14 = f.toList := by
  unfold takeFrame
  split
  · next h =>
    constructor
    · intro e
      rw [← Option.some.inj e]
      apply List.ext_getElem
      · simp at h ⊢; omega
      · intro i h1 h2; simp
    · intro e
      congr 1
      apply Vector.ext
      intro i hi
      have h1 : i < (c.take 14).length := by simp at h hi ⊢; omega
      have : (c.take 14)[i] = f.toList[i]'(by simpa using hi) := by simp [e]
      simpa using this
  · next h =>
    simp only [reduceCtorEq, false_iff]
    intro e
    have := congrArg List.length e
    simp at this h
    omega

theorem takeFrame_eq_none_iff (c : List Byte) : takeFrame c = none ↔ c.length < 14 := by
  unfold takeFrame
  split <;> simp_all

theorem takeFrame_append (f : Frame) (rest : List Byte) : takeFrame (f.toList ++ rest) = some f := by
  rw [takeFrame_eq_some_iff, List.take_append_of_le_length (by simp)]
  exact List.take_of_length_le (by simp)

theorem takeFrame_toList (f : Frame) : takeFrame f.toList = some f := by
  simpa using takeFrame_append f []

/-- A candidate that gives a frame is that frame and the bytes from offset 14 on. -/
theorem takeFrame_split {c : List Byte} {f : Frame} (h : takeFrame c = some f) :
    c = f.toList ++ c.drop 14 := by
  rw [takeFrame_eq_some_iff] at h
  rw [← h, List.take_append_drop]

/-- The candidate frame is the first 14 bytes of `BUF` (R72). -/
theorem candidate_eq (s : State) : s.candidate = takeFrame s.buf := by
  unfold State.candidate State.memRead
  split
  · next bs h =>
    split at h
    · next hl =>
      have : bs = s.buf.take 14 := by simpa using h.symm
      subst this
      cases e : takeFrame s.buf with
      | none => simp only [takeFrame_eq_none_iff, State.len_eq, Config.FRAME_LEN] at e hl; omega
      | some f =>
        rw [takeFrame_eq_some_iff] at e ⊢
        simp [e]
    · cases h
  · next h =>
    split at h
    · cases h
    · next hl => exact ((takeFrame_eq_none_iff _).2 (by simp only [State.len_eq, Config.FRAME_LEN] at hl; omega)).symm

/-! ### The parts of PARSE (R120 to R126) -/

theorem startOk_iff (f : Frame) : startOk f = true ↔ f[0] = 0x02#8 := by
  unfold startOk; exact beq_iff_eq

theorem endOk_iff (f : Frame) : endOk f = true ↔ f[13] = 0x03#8 := by
  unfold endOk; exact beq_iff_eq

/-- Bytes 1 to 10 of an encoded frame, one by one (R131). -/
theorem encodedRegion_eq (k nlv : Byte) (p : Payload) :
    encodedRegion k nlv p =
      #v[k ^^^ 0x26#8, nlv ^^^ k, p[0] ^^^ k, p[1] ^^^ k, p[2] ^^^ k, p[3] ^^^ k, p[4] ^^^ k, p[5] ^^^ k,
        p[6] ^^^ k, p[7] ^^^ k] := rfl

/-- The bytes of the region stay at their offsets. -/
theorem closeFrame_region (r : Region) (i : Nat) (h : i < 10) :
    (closeFrame r)[i + 1]'(by change _ < 14; omega) = r[i] := by
  simp only [closeFrame, Vector.getElem_ofFn]
  rw [dif_pos (by simp only [Config.SUM_FIRST, Config.SUM_LAST]; omega)]
  rfl

/-- A closed region, byte by byte (R131). -/
theorem closeFrame_eq (r : Region) :
    closeFrame r =
      #v[0x02#8, r[0], r[1], r[2], r[3], r[4], r[5], r[6], r[7], r[8], r[9],
        BitVec.ofNat 8 (sumBytes r.toList / 256), BitVec.ofNat 8 (sumBytes r.toList % 256), 0x03#8] := rfl

theorem sumBytes_cons (b : Byte) (bs : List Byte) : sumBytes (b :: bs) = b.toNat + sumBytes bs := rfl

@[simp] theorem sumBytes_nil : sumBytes [] = 0 := rfl

/-- Ten bytes written out. -/
theorem region_toList (r : Region) :
    r.toList = [r[0], r[1], r[2], r[3], r[4], r[5], r[6], r[7], r[8], r[9]] := by
  apply List.ext_getElem
  · simp
  · intro i h1 h2
    have h1 : i < 10 := by simpa using h1
    rcases i with _ | _ | _ | _ | _ | _ | _ | _ | _ | _ | i
    all_goals first | rfl | (exfalso; omega)

theorem sumBytes_region (r : Region) :
    sumBytes r.toList = r[0].toNat + r[1].toNat + r[2].toNat + r[3].toNat + r[4].toNat + r[5].toNat +
      r[6].toNat + r[7].toNat + r[8].toNat + r[9].toNat := by
  rw [region_toList]
  simp only [sumBytes_cons, sumBytes_nil]
  omega

theorem checksumRegion_get (f : Frame) (i : Nat) (h : i < 10) : (checksumRegion f)[i] = f[i + 1]'(by change _ < 14; omega) := by
  simp [checksumRegion, Vector.get]

/-- The byte sum written out (R122). -/
theorem byteSum_eq (f : Frame) :
    byteSum f = f[1].toNat + f[2].toNat + f[3].toNat + f[4].toNat + f[5].toNat + f[6].toNat +
      f[7].toNat + f[8].toNat + f[9].toNat + f[10].toNat := by
  rw [byteSum, sumBytes_region]
  simp only [checksumRegion_get]

theorem checksumField_eq (f : Frame) : checksumField f = 256 * f[11].toNat + f[12].toNat := rfl

theorem payloadField_get (f : Frame) (i : Nat) (h : i < 8) : (payloadField f)[i] = f[i + 3]'(by change _ < 14; omega) := by
  simp [payloadField, Vector.get]

theorem xorLanes_get (k : Byte) (p : Payload) (i : Nat) (h : i < 8) : (xorLanes k p)[i] = p[i] ^^^ k := by
  simp [xorLanes]

theorem frameOk_iff (f : Frame) :
    frameOk f = true ↔ f[0] = 0x02#8 ∧ f[13] = 0x03#8 ∧ byteSum f = checksumField f := by
  simp only [frameOk, Bool.and_eq_true, startOk_iff, endOk_iff, sumOk, beq_iff_eq, and_assoc]

/-- `PARSE` answers a payload exactly for a frame that passes the checks, and then the decoded lanes. -/
theorem parse_eq_valid_iff (f : Frame) (p : Payload) :
    parse f = .valid p ↔ frameOk f = true ∧ p = xorLanes (decodeKey f) (payloadField f) := by
  unfold parse
  cases frameOk f
  · simp
  · simp only [if_true, Verdict.valid.injEq, true_and]
    exact eq_comm

theorem parse_eq_invalid_iff (f : Frame) : parse f = .invalid ↔ frameOk f = false := by
  unfold parse
  split <;> simp_all

/-! ### The search for a marker and the trims (R73, R162, R164) -/

/-- What is left of a buffer trimmed to its first start marker. -/
theorem dropToMarker_spec (b : List Byte) :
    ∃ lost kept, b = lost ++ kept ∧ 0x02#8 ∉ lost ∧ (kept = [] ∨ kept.head? = some 0x02#8) ∧
      (match find Config.START b 0 with
        | some j => b.drop j
        | none => []) = kept := by
  induction b with
  | nil => exact ⟨[], [], rfl, by simp, .inl rfl, rfl⟩
  | cons x b ih =>
    by_cases hx : x = 0x02#8
    · exact ⟨[], x :: b, rfl, by simp, .inr (by simp [hx]), by simp [find, hx, List.findIdx?_cons]⟩
    · obtain ⟨lost, kept, e, hl, hk, hf⟩ := ih
      refine ⟨x :: lost, kept, by simp [e], by simp [hl, Ne.symm hx], hk, ?_⟩
      rw [← hf]
      simp only [find, List.drop_zero, List.findIdx?_cons, Nat.add_zero, Option.map_id']
      rw [if_neg (by simpa using hx)]
      cases List.findIdx? (· == 0x02#8) b <;> simp

/-- The trim from offset `k`: the `k` oldest bytes go, and of the rest everything before the first start
marker, or all of it. -/
theorem trimToMarker_buf_spec (s : State) (k : Nat) :
    ∃ lost kept, s.buf.drop k = lost ++ kept ∧ 0x02#8 ∉ lost ∧
      (kept = [] ∨ kept.head? = some 0x02#8) ∧ (s.trimToMarker k).buf = kept := by
  obtain ⟨lost, kept, e, hl, hk, hf⟩ := dropToMarker_spec (s.buf.drop k)
  refine ⟨lost, kept, e, hl, hk, ?_⟩
  rw [← hf]
  simp only [State.trimToMarker, find, List.drop_zero, Nat.add_zero, Option.map_id']
  cases List.findIdx? (· == 0x02#8) (s.buf.drop k) with
  | none => simp
  | some j => simp [Nat.add_comm]

end Sys2Proof.Machine
end

