-- ==== Sys2Proof/Laws/PerInstr.lean ====
section
/-! SUPPORT. A fact about the encoding of every operation, one lemma per constructor: an operation that has
bits has exactly the 14 bytes of a frame (R101). -/

namespace Sys2Proof.Laws.EncodedLength

open Sys2Proof

/-- What is encoded is one frame long. -/
def Statement (i : Instr) : Prop := ∀ ws, encode i = some ws → ws.length = 14

theorem valid (f : Frame) : Statement (.valid f) := by
  intro ws h; cases h; simp

theorem invalid (f : Frame) : Statement (.invalid f) := by
  intro ws h; cases h; simp

theorem chks (f : Frame) : Statement (.chks f) := by
  intro ws h; cases h

theorem chke (f : Frame) : Statement (.chke f) := by
  intro ws h; cases h

theorem csum (f : Frame) : Statement (.csum f) := by
  intro ws h; cases h

theorem ccmp (s : Nat) (f : Frame) : Statement (.ccmp s f) := by
  intro ws h; cases h

theorem keyd (f : Frame) : Statement (.keyd f) := by
  intro ws h; cases h

theorem xdec (key : Byte) (f : Frame) : Statement (.xdec key f) := by
  intro ws h; cases h

theorem parse (c : List Byte) : Statement (.parse c) := by
  intro ws h; cases h

theorem encode (k nlv : Byte) (p : Payload) : Statement (.encode k nlv p) := by
  intro ws h; cases h

theorem read : Statement (.read) := by
  intro ws h; cases h

theorem fill (m : Nat) : Statement (.fill m) := by
  intro ws h; cases h

theorem resync0 : Statement (.resync0) := by
  intro ws h; cases h

theorem tryDecode : Statement (.tryDecode) := by
  intro ws h; cases h

theorem resync1 : Statement (.resync1) := by
  intro ws h; cases h

theorem returnPayload : Statement (.returnPayload) := by
  intro ws h; cases h

theorem cancel : Statement (.cancel) := by
  intro ws h; cases h

end Sys2Proof.Laws.EncodedLength
end

