-- ==== Sys2Proof/Laws/Step.lean ====
section
/-! SUPPORT. What an operation and a step can do, said once (R172). -/

namespace Sys2Proof.Machine

open Sys2Proof

theorem exec_valid (f : Frame) (s : State) : exec (.valid f) s = .next (s.drivePort f) := rfl
theorem exec_invalid (f : Frame) (s : State) : exec (.invalid f) s = .next (s.drivePort f) := rfl
theorem exec_chks (f : Frame) (s : State) : exec (.chks f) s = .next (s.answer (.condition (startOk f))) := rfl
theorem exec_chke (f : Frame) (s : State) : exec (.chke f) s = .next (s.answer (.condition (endOk f))) := rfl
theorem exec_csum (f : Frame) (s : State) : exec (.csum f) s = .next (s.answer (.sum (byteSum f))) := rfl
theorem exec_ccmp (n : Nat) (f : Frame) (s : State) :
    exec (.ccmp n f) s = .next (s.answer (.condition (sumOk n f))) := rfl
theorem exec_keyd (f : Frame) (s : State) : exec (.keyd f) s = .next (s.answer (.key (decodeKey f))) := rfl
theorem exec_xdec (k : Byte) (f : Frame) (s : State) :
    exec (.xdec k f) s = .next (s.answer (.lanes (xorLanes k (payloadField f)))) := rfl
theorem exec_encode (k nlv : Byte) (p : Payload) (s : State) :
    exec (.encode k nlv p) s = .next (s.answer (.frame (encodeFrame k nlv p))) := rfl

/-- `PARSE` refuses a short candidate and otherwise puts its first 14 bytes on the port. -/
theorem exec_parse (c : List Byte) (s : State) :
    (c.length < 14 ∧ exec (.parse c) s = .refused .shortCandidate) ∨
      ∃ f, takeFrame c = some f ∧ exec (.parse c) s = .next (s.drivePort f) := by
  change (_ ∧ execParse c s = _) ∨ ∃ f, _ ∧ execParse c s = _
  unfold execParse
  cases h : takeFrame c with
  | none => exact .inl ⟨(takeFrame_eq_none_iff c).1 h, rfl⟩
  | some f => exact .inr ⟨f, rfl, rfl⟩

/-- The three outcomes of `TRY` in `DECODING` (R163). -/
theorem exec_try_cases {s : State} (h : s.st = .decoding) :
    (s.buf.length < 14 ∧ exec .tryDecode s = .next (s.setSt .filling)) ∨
      (∃ f p, takeFrame s.buf = some f ∧ parse f = .valid p ∧ exec .tryDecode s = .next (s.deliver p)) ∨
      ∃ f, takeFrame s.buf = some f ∧ parse f = .invalid ∧
        exec .tryDecode s = .next s.resyncAfterFailure := by
  change (_ ∧ execTryDecode s = _) ∨ (∃ f p, _ ∧ _ ∧ execTryDecode s = _) ∨
    ∃ f, _ ∧ _ ∧ execTryDecode s = _
  unfold execTryDecode
  rw [h, candidate_eq]
  cases e : takeFrame s.buf with
  | none => exact .inl ⟨(takeFrame_eq_none_iff _).1 e, rfl⟩
  | some f =>
    cases v : parse f with
    | valid p => exact .inr (.inl ⟨f, p, rfl, v, by simp [v]⟩)
    | invalid => exact .inr (.inr ⟨f, rfl, v, by simp [v]⟩)

/-- Everything an operation can do when it answers a next state. -/
theorem exec_next_cases {i : Instr} {s t : State} (h : exec i s = .next t) :
    t = s ∨
    (decoderSide i = true ∧ ((∃ r, t = s.answer r) ∨ ∃ f, t = s.drivePort f)) ∨
    (i = .read ∧ s.st = .idle ∧ t = s.setSt .filling) ∨
    (∃ m, i = .fill m ∧ s.st = .filling ∧ t = (s.srcRequest s.requestSize m).setSt .resyncing) ∨
    (i = .resync0 ∧ s.st = .resyncing ∧ t = (s.trimToMarker 0).setSt .decoding) ∨
    (i = .tryDecode ∧ s.st = .decoding ∧ s.buf.length < 14 ∧ t = s.setSt .filling) ∨
    ((i = .tryDecode ∨ i = .returnPayload) ∧ s.st = .decoding ∧
      ∃ f p, takeFrame s.buf = some f ∧ parse f = .valid p ∧ t = s.deliver p) ∨
    ((i = .tryDecode ∨ i = .resync1) ∧ s.st = .decoding ∧
      ∃ f, takeFrame s.buf = some f ∧ parse f = .invalid ∧ t = s.resyncAfterFailure) ∨
    (i = .cancel ∧ s.st ≠ .idle ∧ t = s.setSt .idle) := by
  have inj : ∀ {a b : State}, (Host.Outcome.next a : Outcome) = .next b → b = a := by
    intro a b e; cases e; rfl
  cases i with
  | valid f => exact .inr (.inl ⟨rfl, .inr ⟨f, inj h⟩⟩)
  | invalid f => exact .inr (.inl ⟨rfl, .inr ⟨f, inj h⟩⟩)
  | chks f => exact .inr (.inl ⟨rfl, .inl ⟨_, inj h⟩⟩)
  | chke f => exact .inr (.inl ⟨rfl, .inl ⟨_, inj h⟩⟩)
  | csum f => exact .inr (.inl ⟨rfl, .inl ⟨_, inj h⟩⟩)
  | ccmp n f => exact .inr (.inl ⟨rfl, .inl ⟨_, inj h⟩⟩)
  | keyd f => exact .inr (.inl ⟨rfl, .inl ⟨_, inj h⟩⟩)
  | xdec k f => exact .inr (.inl ⟨rfl, .inl ⟨_, inj h⟩⟩)
  | encode k nlv p => exact .inr (.inl ⟨rfl, .inl ⟨_, inj h⟩⟩)
  | parse c =>
    rcases exec_parse c s with ⟨-, e⟩ | ⟨f, -, e⟩
    · rw [e] at h; cases h
    · rw [e] at h; exact .inr (.inl ⟨rfl, .inr ⟨f, inj h⟩⟩)
  | read =>
    simp only [exec, execRead] at h
    split at h
    · next e => exact .inr (.inr (.inl ⟨rfl, e, inj h⟩))
    · exact .inl (inj h)
  | fill m =>
    simp only [exec, execFill] at h
    split at h
    · next e => exact .inr (.inr (.inr (.inl ⟨m, rfl, e, inj h⟩)))
    · exact .inl (inj h)
  | resync0 =>
    simp only [exec, execResync0] at h
    split at h
    · next e => exact .inr (.inr (.inr (.inr (.inl ⟨rfl, e, inj h⟩))))
    · exact .inl (inj h)
  | tryDecode =>
    by_cases e : s.st = .decoding
    · rcases exec_try_cases e with ⟨hl, x⟩ | ⟨f, p, hf, hp, x⟩ | ⟨f, hf, hp, x⟩ <;> rw [x] at h
      · exact .inr (.inr (.inr (.inr (.inr (.inl ⟨rfl, e, hl, inj h⟩)))))
      · exact .inr (.inr (.inr (.inr (.inr (.inr (.inl ⟨.inl rfl, e, f, p, hf, hp, inj h⟩))))))
      · exact .inr (.inr (.inr (.inr (.inr (.inr (.inr (.inl ⟨.inl rfl, e, f, hf, hp, inj h⟩)))))))
    · simp only [exec, execTryDecode] at h
      exact .inl (inj h)
  | resync1 =>
    simp only [exec, execResync1, candidate_eq] at h
    split at h
    · next e v =>
      obtain ⟨f, hf, hp⟩ := Option.map_eq_some_iff.1 v
      exact .inr (.inr (.inr (.inr (.inr (.inr (.inr (.inl ⟨.inr rfl, e, f, hf, hp, inj h⟩)))))))
    · exact .inl (inj h)
  | returnPayload =>
    simp only [exec, execReturnPayload, candidate_eq] at h
    split at h
    · next p e v =>
      obtain ⟨f, hf, hp⟩ := Option.map_eq_some_iff.1 v
      exact .inr (.inr (.inr (.inr (.inr (.inr (.inl ⟨.inr rfl, e, f, p, hf, hp, inj h⟩))))))
    · exact .inl (inj h)
  | cancel =>
    simp only [exec, execCancel] at h
    split at h
    · exact .inl (inj h)
    · next e => exact .inr (.inr (.inr (.inr (.inr (.inr (.inr (.inr ⟨rfl, e, inj h⟩)))))))

/-- Everything a step can do when it answers a next state. -/
theorem step_next_cases {s t : State} (h : step s = .next t) :
    (∃ i, s.selected = some i ∧ exec i s.beginStep = .next t) ∨
      (s.selected = none ∧ t = s.beginStep.applyEvent s.nextEvent) := by
  unfold step at h
  cases e : s.selected with
  | some i => rw [e] at h; exact .inl ⟨i, rfl, h⟩
  | none => rw [e] at h; cases h; exact .inr ⟨rfl, rfl⟩

theorem step_of_selected {s : State} {i : Instr} (h : s.selected = some i) :
    step s = exec i s.beginStep := by
  unfold step; rw [h]

theorem step_of_not_selected {s : State} (h : s.selected = none) :
    step s = .next (s.beginStep.applyEvent s.nextEvent) := by
  unfold step; rw [h]

/-! ### Runs -/

theorem core_run_zero (s : State) : core.run 0 s = .next s := rfl

/-- A run goes on from the next state of its first step. -/
theorem core_run_succ {s t : State} (k : Nat) (h : step s = .next t) : core.run (k + 1) s = core.run k t := by
  refine (Host.Core.run.eq_2 core s k).trans ?_
  rw [show core.step s = .next t from h]

/-- A run ends at a refusal. -/
theorem core_run_refused {s : State} {r : Refusal} (k : Nat) (h : step s = .refused r) :
    core.run (k + 1) s = .refused r := by
  refine (Host.Core.run.eq_2 core s k).trans ?_
  rw [show core.step s = .refused r from h]

@[simp] theorem deliveries_zero (s : State) : deliveries 0 s = [] := rfl

theorem deliveries_succ {s t : State} (k : Nat) (h : step s = .next t) :
    deliveries (k + 1) s = t.delivery.toList ++ deliveries k t := by
  rw [deliveries, h]

end Sys2Proof.Machine
end

