-- ==== Sys2Proof/Tests/Slice0.lean ====
section
/-! SUPPORT. Small checks, each on one word or one step, with the expected results of 95_test_vectors.md
(V, E, T and X are its row names), and for every statement with hypotheses a witness that they can be met
together. -/

namespace Sys2Proof.Tests

open Sys2Proof Sys2Proof.Machine

/-- `EX` of 95_test_vectors.md, the source's own example (S6, V1). -/
def EX : Frame := #v[0x02, 0x20, 0x0C, 0x36, 0x36, 0x36, 0x37, 0x34, 0x28, 0x35, 0x06, 0x01, 0x9C, 0x03]

/-- `EX` with one checksum bit inverted (V9). -/
def badEX : Frame := #v[0x02, 0x20, 0x0C, 0x36, 0x36, 0x36, 0x37, 0x34, 0x28, 0x35, 0x06, 0x01, 0x9D, 0x03]

/-- V6a: byte 2 decodes to 0x41. -/
def V6a : Frame := #v[0x02, 0x20, 0x47, 0x36, 0x36, 0x36, 0x37, 0x34, 0x28, 0x35, 0x06, 0x01, 0xD7, 0x03]

/-- The payload of `EX`. -/
def payEX : Payload := #v[0x30, 0x30, 0x30, 0x31, 0x32, 0x2E, 0x33, 0x00]

/-- A state of the framer with nothing else in it. -/
def framer (st : St) (buf source : List Byte) (events : List Event) : State :=
  { State.reset with st := st, buf := buf, source := source, events := events }

/-- The next state, where there is one. -/
def after (o : Outcome) : Option State :=
  match o with
  | .next t => some t
  | _ => none

/-- The framer's half of the next state. -/
def sf (o : Outcome) : Option (St × List Byte × List Byte × Option Payload) :=
  (after o).map fun t => (t.st, t.buf, t.source, t.delivery)

/-- The decoder's half of the next state. -/
def pd (o : Outcome) : Option (Option Result × Bool × BitVec 64) :=
  (after o).map fun t => (t.result, t.pdValid, t.pdPayload)

/-- What is computed from nothing but operands. -/
def computed (i : Instr) : Option (Option Result) := (after (exec i State.reset)).map (·.result)

/-! ### WellFormed refuses an ill-formed operation for each of its checks -/

theorem test_valid_row_needs_a_valid_frame : ¬ WellFormed (.valid badEX) := by decide

theorem test_invalid_row_needs_an_invalid_frame : ¬ WellFormed (.invalid EX) := by decide

theorem test_ccmp_needs_a_sum_of_ten_bytes : ¬ WellFormed (.ccmp 2551 EX) := by decide

theorem test_parse_needs_fourteen_bytes : ¬ WellFormed (.parse (EX.toList.take 13)) := by decide

theorem test_fill_answers_at_most_fourteen : ¬ WellFormed (.fill 15) := by decide

theorem test_wellFormed_accepts : WellFormed (.valid EX) ∧ WellFormed (.invalid badEX) ∧ WellFormed (.ccmp 2550 EX) ∧
    WellFormed (.parse EX.toList) ∧ WellFormed (.fill 14) := by decide

/-! ### Decoding of words written out from the spec (R18, R90, R107) -/

/-- V1: `0x02` `20` `0C` `36 36 36 37 34 28 35 06` `01 9C` `03`. -/
theorem test_decode_valid_word : decodeTableWord 112 0x02200C3636363734283506019C03 = some (.valid EX) := by decide

/-- V9. -/
theorem test_decode_invalid_word : decodeTableWord 112 0x02200C3636363734283506019D03 = some (.invalid badEX) := by decide

/-- V6g. -/
theorem test_decode_bytes_leaves_the_rest : decode (EX.toList ++ [0xAA, 0xBB]) = .ok (.valid EX, [0xAA, 0xBB]) := by
  unfold EX
  rfl

theorem test_decode_refuses_thirteen_bytes : decode (EX.toList.take 13) = .error .shortFrame := by
  rfl

/-- V19. -/
theorem test_decode_all_zero : decodeTableWord 112 0 = some (.invalid #v[0, 0, 0, 0, 0, 0, 0, 0, 0, 0, 0, 0, 0, 0]) := by decide

theorem test_operation_rows_have_no_word : decodeTableWord 0 0 = none := by decide

theorem test_encode_valid : encode (.valid EX) = some [0x02, 0x20, 0x0C, 0x36, 0x36, 0x36, 0x37, 0x34, 0x28, 0x35, 0x06, 0x01, 0x9C, 0x03] := by decide

/-! ### The Packet Decoder's operations -/

/-- 95 section 2.4. -/
theorem test_chks : computed (.chks EX) = some (some (.condition true)) ∧
    computed (.chks (EX.set 0 0x82)) = some (some (.condition false)) := by decide

/-- 95 section 2.4. -/
theorem test_chke : computed (.chke EX) = some (some (.condition true)) ∧
    computed (.chke (EX.set 13 0x13)) = some (some (.condition false)) := by decide

/-- V1 and V5. -/
theorem test_csum : computed (.csum EX) = some (some (.sum 412)) ∧
    computed (.csum #v[0x02, 0xFF, 0xFF, 0xFF, 0xFF, 0xFF, 0xFF, 0xFF, 0xFF, 0xFF, 0xFF, 0x09, 0xF6, 0x03]) = some (some (.sum 2550)) := by decide

/-- V1 and V14 (bytes exchanged). -/
theorem test_ccmp : computed (.ccmp 412 EX) = some (some (.condition true)) ∧
    computed (.ccmp 412 #v[0x02, 0x20, 0x0C, 0x36, 0x36, 0x36, 0x37, 0x34, 0x28, 0x35, 0x06, 0x9C, 0x01, 0x03]) = some (some (.condition false)) := by decide

/-- 95 section 2.4. -/
theorem test_keyd : computed (.keyd EX) = some (some (.key 0x06)) ∧ computed (.keyd (EX.set 1 0xFF)) = some (some (.key 0xD9)) := by decide

/-- 95 section 2.4, the bytes of V6. -/
theorem test_xdec : computed (.xdec 0xFF #v[0x02, 0xD9, 0xF5, 0xFF, 0xFE, 0xFD, 0x80, 0x7F, 0x01, 0x00, 0xF5, 0x06, 0xBD, 0x03]) =
    some (some (.lanes #v[0x00, 0x01, 0x02, 0x7F, 0x80, 0xFE, 0xFF, 0x0A])) := by decide

/-- V6a (X10) and 95 section 2.6. -/
theorem test_parse_ignores_byte_two : pd (exec (.parse V6a.toList) State.reset) =
    some (some (.verdict (.valid payEX)), true, 0x30303031322E3300) := by decide

/-- V17 (X1). -/
theorem test_parse_compares_sixteen_bits : computed (.parse [0x02, 0xFF, 0x01, 0x00, 0x00, 0x00, 0x00, 0x00, 0x00, 0x00, 0x00, 0x00, 0x00, 0x03]) = some (some (.verdict .invalid)) := by decide

/-- 95 section 2.6, first row. -/
theorem test_valid_on_the_port : pd (exec (.valid EX) State.reset) = some (some (.verdict (.valid payEX)), true, 0x30303031322E3300) := by decide

/-- 95 section 2.6, third row. -/
theorem test_invalid_on_the_port : pd (exec (.invalid badEX) State.reset) = some (some (.verdict .invalid), false, 0) := by decide

/-- E4. -/
theorem test_encode : computed (.encode 0xFF 0x0A #v[0x00, 0x01, 0x02, 0x7F, 0x80, 0xFE, 0xFF, 0x0A]) =
    some (some (.frame #v[0x02, 0xD9, 0xF5, 0xFF, 0xFE, 0xFD, 0x80, 0x7F, 0x01, 0x00, 0xF5, 0x06, 0xBD, 0x03])) := by decide

/-- E1, with the default of R103. -/
theorem test_encode_two_arguments : computed (.encodeNewline 0x06 payEX) = some (some (.frame EX)) := by decide

/-! ### The Stream Framer's operations -/

/-- T2. -/
theorem test_read : sf (exec .read (framer .idle [0x02, 0x20, 0x0C] [] [])) =
    some (.filling, [0x02, 0x20, 0x0C], [], none) := by decide

/-- The example of R161. -/
theorem test_fill : sf (exec (.fill 2) (framer .filling [0x02, 0x20, 0x0C] [0x36, 0x36, 0x37] [])) =
    some (.resyncing, [0x02, 0x20, 0x0C, 0x36, 0x36], [0x37], none) := by decide

/-- T6. -/
theorem test_fill_full_buffer : sf (exec (.fill 3) (framer .filling EX.toList [0x55, 0xAA] [])) =
    some (.resyncing, EX.toList, [0x55, 0xAA], none) := by decide

/-- T8. -/
theorem test_resync0 : sf (exec .resync0 (framer .resyncing [0x55, 0xAA, 0x02, 0x20] [] [])) =
    some (.decoding, [0x02, 0x20], [], none) := by decide

/-- T9. -/
theorem test_resync0_keeps_later_markers : sf (exec .resync0 (framer .resyncing [0x02, 0x20, 0x02, 0x02] [] [])) =
    some (.decoding, [0x02, 0x20, 0x02, 0x02], [], none) := by decide

/-- T12. -/
theorem test_try_short : sf (exec .tryDecode (framer .decoding (EX.toList.take 13) [] [])) =
    some (.filling, EX.toList.take 13, [], none) := by decide

/-- T13. -/
theorem test_try_return : sf (exec .tryDecode (framer .decoding EX.toList [] [])) =
    some (.idle, [], [], some payEX) := by decide

/-- T15. -/
theorem test_resync1 : sf (exec .resync1 (framer .decoding [0x02, 0x11, 0x22, 0x02, 0x20, 0x0C, 0x36, 0x36, 0x36, 0x37, 0x34, 0x28, 0x35, 0x06] [] [])) =
    some (.decoding, [0x02, 0x20, 0x0C, 0x36, 0x36, 0x36, 0x37, 0x34, 0x28, 0x35, 0x06], [], none) := by decide

/-- T16 (X15). -/
theorem test_resync1_finds_the_last_byte : sf (exec .resync1 (framer .decoding [0x02, 0x20, 0x0C, 0x36, 0x36, 0x36, 0x37, 0x34, 0x28, 0x35, 0x06, 0x01, 0x9C, 0x02] [] [])) =
    some (.decoding, [0x02], [], none) := by decide

/-- T13. -/
theorem test_return : sf (exec .returnPayload (framer .decoding EX.toList [] [])) =
    some (.idle, [], [], some payEX) := by decide

/-- T19. -/
theorem test_cancel : sf (exec .cancel (framer .resyncing [0x55, 0x02, 0x20, 0x0C] [] [])) =
    some (.idle, [0x55, 0x02, 0x20, 0x0C], [], none) := by decide

/-- 95 section 3. -/
theorem test_find : find 0x02 [0x02, 0x11, 0x22, 0x02, 0x20, 0x02] 0 = some 0 ∧ find 0x02 [0x02, 0x11, 0x22, 0x02, 0x20, 0x02] 1 = some 3 ∧
    find 0x02 [0x02] 1 = none ∧ find 0x02 [0x55, 0x02] 1 = some 1 := by decide

/-! ### Steps -/

theorem test_first_step_runs_the_fetched_word : pd (step (State.reset.withFetchWord 112 0x02200C3636363734283506019C03)) =
    some (some (.verdict (.valid payEX)), true, 0x30303031322E3300) := by decide

/-- R207: a `RETURN` that is due wins over `rd_cancel`. -/
theorem test_clock_return_cycle : sf (step (framer .decoding EX.toList [] [.clock ⟨false, false, true, false⟩])) =
    some (.idle, [], [], some payEX) := by decide

/-- R207, R242. -/
theorem test_clock_reset_wins : sf (step (framer .decoding EX.toList [0x55] [.clock ⟨true, true, true, true⟩])) =
    some (.idle, [], [0x55], none) := by decide

/-- R188. -/
theorem test_clock_fill_takes_one_byte : sf (step (framer .filling [0x02] [0x20, 0x0C] [.clock ⟨false, false, false, true⟩])) =
    some (.resyncing, [0x02, 0x20], [0x0C], none) := by decide

/-- Program P14: the window that straddles both frames is accepted (C6). -/
theorem test_scan_false_frame : scan ([0x02, 0x20, 0x0C, 0x36, 0x02, 0x30, 0x30, 0x30, 0x30, 0x30, 0x30, 0x00, 0x08, 0x03] ++
    [0x02, 0x01, 0x2D, 0x03, 0x17, 0x17, 0x17, 0x16, 0x09, 0x15, 0x14, 0x00, 0xBE, 0x03]) =
    some (#v[0x26, 0x26, 0x26, 0x26, 0x16, 0x1E, 0x15, 0x14], [0x17, 0x17, 0x17, 0x16, 0x09, 0x15, 0x14, 0x00, 0xBE, 0x03]) := by decide

/-! ### Witnesses: the hypotheses of each statement can be met together, clause by clause -/

/-- The frame of greatest sum (V5). -/
def maxFrame : Frame := #v[0x02, 0xFF, 0xFF, 0xFF, 0xFF, 0xFF, 0xFF, 0xFF, 0xFF, 0xFF, 0xFF, 0x09, 0xF6, 0x03]

/-- A frame with a start marker inside and the wrong end marker (T17). -/
def allMarkers : Frame := #v[2, 2, 2, 2, 2, 2, 2, 2, 2, 2, 2, 2, 2, 2]

theorem EX_valid : ValidFrame EX := by unfold ValidFrame; decide

theorem badEX_not_valid : ¬ ValidFrame badEX := by unfold ValidFrame; decide

theorem allMarkers_not_valid : ¬ ValidFrame allMarkers := by unfold ValidFrame; decide

theorem parse_EX : parse EX = .valid payEX := by decide

theorem lanes_EX : decodedLanes EX = payEX := by decide

theorem witness_ResetEmptiesTheFramerOnly :
    let p : Pins := ⟨true, true, true, true⟩
    p.rst = true ∧ (Event.reset = .reset ∨ Event.reset = .clock p) ∧
      (Event.clock p = .reset ∨ Event.clock p = .clock p) := by decide

theorem witness_ChecksumSumNeverOverflows :
    exec (.csum maxFrame) State.reset = .next (State.reset.answer (.sum 2550)) := by
  have h : byteSum maxFrame = 2550 := by decide
  simp only [exec, execCsum, h]

theorem witness_ParseDecodesExactlyTheValidFrames : ValidFrame EX ∧ ¬ ValidFrame badEX :=
  ⟨EX_valid, badEX_not_valid⟩

theorem witness_ParseRefusesShortCandidates :
    (EX.toList.take 13).length < 14 ∧ 14 ≤ EX.toList.length ∧ 14 ≤ (EX.toList ++ [0xAA, 0xBB]).length := by
  decide

theorem witness_FrameRowsAnswerTheirVerdict : ValidFrame EX ∧ ¬ ValidFrame badEX :=
  ⟨EX_valid, badEX_not_valid⟩

theorem witness_DecoderPortShowsItsVerdict :
    ((State.reset.drivePort EX).frame = packFrame EX ∧ ValidFrame EX) ∧
      (State.reset.drivePort badEX).frame = packFrame badEX ∧ ¬ ValidFrame badEX :=
  ⟨⟨rfl, EX_valid⟩, rfl, badEX_not_valid⟩

theorem witness_TenBytesHaveOneValidCompletion :
    parse maxFrame ≠ .invalid ∧ maxFrame[11].toNat = 0x09 ∧ maxFrame[12].toNat = 0xF6 := by decide

theorem witness_EncodeThenParseRoundTrip :
    parse EX ≠ .invalid ∧ encodeFrame 0x06 0x0A payEX = EX := by decide

theorem witness_AnySingleBitErrorIsDetected : parse EX ≠ .invalid ∧ 0 < 112 ∧ 111 < 112 := by decide

/-- V20 (two bytes exchanged) and V21 (one raised, one lowered). -/
theorem witness_ExchangedOrCompensatedBytesAreNotDetected :
    let g : Frame := (EX.set 4 EX[7]).set 7 EX[4]
    let k : Frame := (EX.set 4 0x37).set 5 0x35
    parse EX ≠ .invalid ∧ (g[4] = EX[7] ∧ g[7] = EX[4] ∧ ∀ n : Fin 14, n ≠ 4 → n ≠ 7 → g[n] = EX[n]) ∧
      k[4].toNat = EX[4].toNat + 1 ∧ k[5].toNat + 1 = EX[5].toNat ∧
        ∀ n : Fin 14, n ≠ 4 → n ≠ 5 → k[n] = EX[n] := by decide

theorem witness_DecoderSideIsPure :
    decoderSide (.keyd EX) = true ∧ exec (.keyd EX) State.reset = .next (State.reset.answer (.key 0x06)) :=
  ⟨rfl, rfl⟩

theorem witness_ClassifierFollowsMaskAndConstraint :
    (packFrame EX &&& 0xFF000000000000000000000000FF#112 = 0x0200000000000000000000000003#112) ∧
      256 * EX[11].toNat + EX[12].toNat = byteSum EX ∧
      packFrame allMarkers &&& 0xFF000000000000000000000000FF#112 ≠ 0x0200000000000000000000000003#112 ∧
      256 * badEX[11].toNat + badEX[12].toNat ≠ byteSum badEX := by decide

theorem witness_DecodeAndEncodeAgree :
    (WellFormed (.valid EX) ∧ encode (.valid EX) = some EX.toList) ∧
      (WellFormed (.invalid badEX) ∧ encode (.invalid badEX) = some badEX.toList) ∧
      decode (EX.toList ++ [0xAA]) = .ok (.valid EX, [0xAA]) :=
  ⟨by decide, by decide, by rfl⟩

theorem witness_DecodeIsTotalFromFourteenBytes :
    (EX.toList.take 13).length < 14 ∧ 14 ≤ EX.toList.length := by decide

theorem witness_StepRunsTheOperationPutBeforeIt :
    decode (unpackFrame (packFrame EX)).toList = .ok (.valid EX, []) ∧ WellFormed (.valid EX) :=
  ⟨by rfl, by decide⟩

theorem witness_QuietStepTakesWhatTheControlStateCallsFor :
    let f : St → List Byte → State := fun st buf => framer st buf [] [.quiet]
    (f .idle []).events = .quiet :: [] ∧ (f .filling (EX.toList.take 13)).buf.length < 14 ∧
      14 ≤ (f .filling EX.toList).buf.length ∧ (f .resyncing []).st = .resyncing ∧
      (f .decoding []).st = .decoding ∧ (framer .idle [] [] []).events = [] := by decide

theorem witness_ReadStartsFilling :
    (framer .idle [0x02] [] []).st = .idle ∧ (framer .filling [] [] []).st ≠ .idle := by decide

theorem witness_FillAppendsTheAnswer :
    let s := framer .filling [0x02] (EX.toList.drop 1) []
    s.st = .filling ∧ 13 ≤ 14 - s.buf.length ∧ 13 ≤ s.source.length ∧ 0 ≤ 14 - s.buf.length := by decide

/-- A full buffer, and a choice far outside the contract with one byte missing. -/
theorem witness_FillNeverExceedsTheContract :
    ((framer .filling EX.toList [0x55] []).st = .filling ∧ 14 ≤ (framer .filling EX.toList [0x55] []).buf.length) ∧
      exec (.fill 20) (framer .filling (EX.toList.take 13) [0x03, 0x55] []) =
        .next (framer .resyncing EX.toList [0x55] []) := ⟨by decide, rfl⟩

theorem witness_ResyncDiscardsUpToTheFirstMarker : (framer .resyncing [0x55, 0x02] [] []).st = .resyncing := by
  decide

theorem witness_TryFollowsTheVerdict :
    (framer .decoding (EX.toList.take 13) [] []).buf.length < 14 ∧
      (framer .decoding EX.toList [] []).buf = EX.toList ++ [] ∧ parse EX = .valid payEX ∧
      parse badEX = .invalid := by decide

theorem witness_FailedAttemptDiscardsUpToTheNextMarker :
    let s := framer .decoding (allMarkers.toList ++ [0x55]) [] []
    s.st = .decoding ∧ s.buf = allMarkers.toList ++ [0x55] ∧ parse allMarkers = .invalid := by decide

theorem witness_ReturnDeliversThePayload :
    let s := framer .decoding (EX.toList ++ [0x55]) [] []
    s.st = .decoding ∧ s.buf = EX.toList ++ [0x55] ∧ ValidFrame EX := ⟨rfl, rfl, EX_valid⟩

theorem witness_CancelKeepsTheBuffer : (framer .resyncing [0x55] [] []).st ≠ .idle := by decide

theorem witness_DisabledOperationsHold :
    (framer .idle [] [] []).st ≠ .filling ∧ (framer .idle [] [] []).st ≠ .resyncing ∧
      (framer .idle [] [] []).st ≠ .decoding ∧ (framer .idle [] [] []).st = .idle ∧
      (framer .decoding [0x02] [] []).buf.length < 14 ∧ parse badEX = .invalid ∧ parse EX ≠ .invalid := by
  decide

theorem witness_BufferChangesOnlyByAppendOrTrim :
    step (framer .filling [0x02] [0x20] [.op (.fill 1)]) = .next (framer .resyncing [0x02, 0x20] [] []) ∧
      step (framer .resyncing [0x55] [] []) = .next (framer .decoding [] [] []) ∧
      step (framer .filling [0x02] [0x20] [.arrive [0x0C]]) = .next (framer .filling [0x02] [0x20, 0x0C] []) :=
  ⟨rfl, rfl, rfl⟩

theorem witness_DeliveryOnlyOfAValidBufferedFrame :
    let t := { framer .idle [0x55] [] [] with delivery := some payEX }
    step (framer .decoding (EX.toList ++ [0x55]) [] []) = .next t ∧ t.delivery = some payEX := ⟨rfl, rfl⟩

theorem witness_ReadEndsOnlyByReturnCancelOrReset :
    step (framer .filling [0x02] [] [.op .cancel]) = .next (framer .idle [0x02] [] []) ∧
      step (framer .filling [0x02] [] [.reset]) = .next (framer .idle [] [] []) ∧
      step (framer .decoding EX.toList [] []) =
        .next { framer .idle [] [] [] with delivery := some payEX } := ⟨rfl, rfl, rfl⟩

theorem witness_FramerIgnoresTheDecoderPort :
    step (framer .resyncing [0x55] [] []) = .next (framer .decoding [] [] []) := rfl

theorem witness_EveryStepKeepsBoundAndNormalForm :
    (framer .resyncing (0x55 :: EX.toList.take 13) [] []).Inv ∧
      step (framer .resyncing (0x55 :: EX.toList.take 13) [] []) =
        .next (framer .decoding (EX.toList.take 13) [] []) := ⟨⟨by decide, by decide⟩, rfl⟩

theorem witness_UncancelledStepKeepsReadBoundaries :
    (framer .filling (EX.toList.take 13) [0x03] [.op (.fill 1)]).UncancelledInv ∧
      (framer .filling (EX.toList.take 13) [0x03] [.op (.fill 1)]).nextEvent.cancels = false ∧
      step (framer .filling (EX.toList.take 13) [0x03] [.op (.fill 1)]) =
        .next (framer .resyncing EX.toList [] []) :=
  ⟨⟨⟨by decide, by decide⟩, by decide, by decide, by decide⟩, rfl, rfl⟩

theorem witness_FramerCandidatesBeginWithTheMarker :
    (framer .decoding badEX.toList [] []).Inv ∧ (framer .decoding badEX.toList [] []).st = .decoding ∧
      (framer .decoding badEX.toList [] []).candidate = some badEX ∧ parse badEX = .invalid :=
  ⟨⟨by decide, by decide⟩, rfl, by decide, by decide⟩

theorem witness_EmptyAnswerChangesNothing :
    let s := framer .filling (EX.toList.take 13) [0x03] []
    s.st = .filling ∧ s.buf.length < 14 ∧ markerFirst s.buf = true ∧ markerFirst [] = true := by decide

theorem witness_AtMostOneAttemptPerFill :
    let t := framer .decoding (allMarkers.toList.drop 1) [] []
    (framer .decoding allMarkers.toList [] []).buf.length ≤ 14 ∧
      exec .tryDecode (framer .decoding allMarkers.toList [] []) = .next t ∧ t.st = .decoding :=
  ⟨by decide, rfl, rfl⟩

theorem witness_OneByteFillAndResyncShortcut :
    let s := framer .filling (EX.toList.take 13) [0x03] []
    let e := framer .filling [] [0x55] []
    (s.st = .filling ∧ s.buf.length < 14 ∧ markerFirst s.buf = true ∧ s.source = 0x03 :: []) ∧
      e.st = .filling ∧ markerFirst e.buf = true ∧ e.source = 0x55 :: [] := by decide

theorem witness_OutValidMarksTheReturnCycle :
    step (framer .decoding EX.toList [] [.clock ⟨false, false, true, false⟩]) =
        .next { framer .idle [] [] [] with delivery := some payEX } ∧
      step (framer .idle [] [] [.clock ⟨false, false, false, false⟩]) = .next (framer .idle [] [] []) :=
  ⟨rfl, rfl⟩

/-- Every row of the port table has its case: see the pins and states named here. -/
theorem witness_ClockEdgeFollowsThePortTable :
    let quiet : Pins := ⟨false, false, false, false⟩
    let cancel : Pins := ⟨false, false, true, false⟩
    (quiet.rst = false ∧ quiet.rdReq = false ∧ quiet.rdCancel = false ∧ quiet.inValid = false) ∧
      cancel.rdCancel = true ∧ (⟨false, true, false, true⟩ : Pins).rdReq = true ∧
      (⟨false, true, false, true⟩ : Pins).inValid = true ∧
      (framer .idle [] [] []).buf.length ≤ 14 ∧
      ((framer .decoding EX.toList [] []).buf = EX.toList ∧ ValidFrame EX) ∧
      ((framer .decoding badEX.toList [] []).buf = badEX.toList ∧ ¬ ValidFrame badEX) ∧
      (framer .filling EX.toList [] []).buf.length = 14 ∧
      ((framer .filling (EX.toList.take 13) [0x03] []).buf.length < 14 ∧
        (framer .filling (EX.toList.take 13) [0x03] []).source = 0x03 :: []) ∧
      (framer .resyncing [] [] []).st = .resyncing ∧
      (framer .decoding (EX.toList.take 13) [] []).buf.length < 14 :=
  ⟨by decide, by decide, by decide, by decide, by decide, ⟨rfl, EX_valid⟩, ⟨rfl, badEX_not_valid⟩, by decide,
    by decide, by decide, by decide⟩

theorem witness_PortLevelRefinesTransactionLevel : (⟨false, true, true, true⟩ : Pins).rst = false := rfl

theorem witness_ScanIsTheSpecsRecursion :
    0x02#8 ∉ [0x55#8, 0x03] ∧ (EX.toList.drop 1).length = 13 ∧ (EX.toList.drop 2).length < 13 ∧
      0x02#8 :: EX.toList.drop 1 = EX.toList ++ [] ∧ ValidFrame EX ∧
      0x02#8 :: badEX.toList.drop 1 = badEX.toList ++ [] ∧ ¬ ValidFrame badEX :=
  ⟨by decide, by decide, by decide, by decide, EX_valid, by decide, badEX_not_valid⟩

theorem witness_NoStartMarkerIsSkippedUntried :
    scan ([0x55, 0x02] ++ EX.toList ++ [0x77]) = some (payEX, [0x77]) := by decide

theorem witness_EveryStepFollowsTheStreamScan :
    (framer .decoding EX.toList [0x77] []).nextEvent.resets = false ∧
      step (framer .decoding EX.toList [0x77] []) =
        .next { framer .idle [] [0x77] [] with delivery := some payEX } ∧
      step (framer .resyncing [0x55] [] []) = .next (framer .decoding [] [] []) := ⟨rfl, rfl, rfl⟩

theorem witness_RunsDeliverTheScannedPayloads :
    let s := framer .idle [] EX.toList [.op .read, .op (.fill 14), .quiet, .quiet]
    (∀ e ∈ s.events, e.resets = false) ∧ deliveries 4 s = [payEX] := by decide

theorem witness_EveryChunkingReturnsTheScannedPayload :
    let s := framer .filling (EX.toList.take 12) (EX.toList.drop 12) []
    s.st = .filling ∧ s.buf.length ≤ 14 ∧ scan (s.buf ++ s.source) = some (payEX, []) ∧
      (∀ m ∈ [1, 1, 1], 1 ≤ m) ∧ s.source.length < [1, 1, 1].length := by decide

theorem witness_FairPortRunReturnsTheScannedPayload :
    let s := framer .decoding (EX.toList.take 13) [0x03] []
    s.Inv ∧ s.st ≠ .idle ∧ scan (s.buf ++ s.source) = some (payEX, []) ∧ 4 * s.source.length + 4 ≤ 8 :=
  ⟨⟨by decide, by decide⟩, by decide, by decide, by decide⟩

theorem witness_NothingIsDeliveredWithoutAScanResult :
    scan (framer .filling [] [0x00, 0x03, 0xFF, 0x55] []).stream = none := by decide

theorem witness_GarbagePrefixIsSkippedInAnyChunks :
    let s := framer .filling [] ([0x55, 0x03] ++ EX.toList ++ [0x77]) []
    s.st = .filling ∧ s.buf = [] ∧ s.source = [0x55, 0x03] ++ EX.toList ++ [0x77] ∧ 0x02#8 ∉ [0x55#8, 0x03] ∧
      ValidFrame EX ∧ (∀ m ∈ List.replicate 16 1, 1 ≤ m) ∧ [0x55#8, 0x03].length + 14 ≤ (List.replicate 16 1).length :=
  ⟨rfl, rfl, rfl, by decide, EX_valid, by decide, by decide⟩

/-- The `READ` of program P3, with the least number of one-byte answers. -/
theorem witness_CorruptFrameThenValidFrame_read :
    let s := framer .filling [] (badEX.toList ++ EX.toList ++ [0x77]) []
    s.st = .filling ∧ s.buf = [] ∧ s.source = badEX.toList ++ EX.toList ++ [0x77] ∧
      (∀ m ∈ List.replicate 28 1, 1 ≤ m) ∧ 28 ≤ (List.replicate 28 1).length :=
  ⟨rfl, rfl, rfl, by decide, by decide⟩

/-- A run that delivers: the corrupt frame is held and tried, the valid one is at the source. -/
theorem witness_CorruptFrameThenValidFrame_run :
    let s := framer .decoding badEX.toList EX.toList [.quiet, .quiet, .op (.fill 14)]
    s.stream = badEX.toList ++ EX.toList ++ [] ∧ (∀ e ∈ s.events, e.resets = false) ∧
      deliveries 5 s = [payEX] := ⟨rfl, by decide, by decide⟩

/-- `badEX` then `EX`, as in program P3: no start marker stands inside `badEX`. -/
theorem witness_CorruptFrameThenValidFrame :
    badEX[0] = 0x02#8 ∧ badEX[13] = 0x03#8 ∧ ¬ ValidFrame badEX ∧ ValidFrame EX ∧
      ∀ (i : Nat) (g : Frame) (rest : List Byte), 1 ≤ i → i < 14 →
        (badEX.toList ++ EX.toList).drop i = g.toList ++ rest → g[0] = 0x02#8 → ¬ ValidFrame g := by
  refine ⟨by decide, by decide, badEX_not_valid, EX_valid, fun i g rest h1 h2 e h0 => ?_⟩
  exfalso
  have hb : ∀ j : Fin 14, 1 ≤ j.val → ((badEX.toList ++ EX.toList).drop j.val).head? ≠ some 0x02#8 := by decide
  apply hb ⟨i, h2⟩ h1
  have hg : g.toList.head? = some 0x02#8 := by
    rw [← h0, List.head?_eq_getElem?]; simp
  simp only [e, List.head?_append, hg, Option.some_or]

end Sys2Proof.Tests
end

/-! The packed ports (R18). The facts are proved once for `n` bytes on a port; the frame port and the payload
port are the instances at 14 and 8 bytes. -/

namespace Sys2Proof.Proofs.PackedPorts

open Sys2Proof Sys2Proof.Machine

/-! ### The lanes of a port of `n` bytes -/

/-- Two lanes of a port do not overlap: a bit of one lies below or above the other. -/
theorem laneLow_disjoint {n i k j : Nat} (hi : i < n) (hk : k < n) (hne : k ≠ i) (hj : j < 8) :
    laneLow n i + j < laneLow n k ∨ laneLow n k + 8 ≤ laneLow n i + j := by
  simp only [laneLow, Config.BYTE_BITS]
  omega

/-- Every lane lies inside its port. -/
theorem laneLow_add_le {n i : Nat} (hi : i < n) : laneLow n i + 8 ≤ n * Config.BYTE_BITS := by
  simp only [laneLow, Config.BYTE_BITS]
  omega

/-- Every bit of a port lies in a lane. -/
theorem exists_laneLow_add {n b : Nat} (hb : b < n * Config.BYTE_BITS) :
    ∃ i j, i < n ∧ j < 8 ∧ b = laneLow n i + j := by
  refine ⟨n - 1 - b / 8, b % 8, ?_⟩
  simp only [laneLow, Config.BYTE_BITS] at hb ⊢
  omega

/-- A port value is determined by its lanes. -/
theorem eq_of_lanes_eq {n : Nat} {w w' : BitVec (n * Config.BYTE_BITS)}
    (h : ∀ i < n, w.extractLsb' (laneLow n i) 8 = w'.extractLsb' (laneLow n i) 8) : w = w' := by
  apply BitVec.eq_of_getLsbD_eq
  intro b hb
  obtain ⟨i, j, hi, hj, rfl⟩ := exists_laneLow_add hb
  have hbit := congrArg (·.getLsbD j) (h i hi)
  simpa only [BitVec.getLsbD_extractLsb', hj, decide_true, Bool.true_and] using hbit

/-! ### Packing -/

/-- A bit of lanes laid over each other is set when it is set in one of them. -/
theorem getLsbD_foldr_or {α : Type} {width : Nat} (lane : α → BitVec width) (is : List α) (b : Nat) :
    (is.foldr (fun i w => lane i ||| w) 0#_).getLsbD b = is.any fun i => (lane i).getLsbD b := by
  induction is with
  | nil => simp
  | cons i is ih => rw [List.foldr_cons, BitVec.getLsbD_or, ih, List.any_cons]

/-- On the bits of lane `i` a packed port carries byte `i`, and no other byte reaches them. -/
theorem getLsbD_packBytes {n i j : Nat} (v : Vector Byte n) (hi : i < n) (hj : j < 8) :
    (packBytes v).getLsbD (laneLow n i + j) = v[i].getLsbD j := by
  have own : (byteLane (n * Config.BYTE_BITS) v[i] (laneLow n i)).getLsbD (laneLow n i + j) = v[i].getLsbD j :=
    byteLane_in _ _ (laneLow_add_le hi) hj
  have others : ∀ k : Fin n, k.val ≠ i →
      (byteLane (n * Config.BYTE_BITS) (v.get k) (laneLow n k)).getLsbD (laneLow n i + j) = false :=
    fun k hne => byteLane_out _ _ (laneLow_disjoint hi k.isLt hne hj)
  rw [packBytes, getLsbD_foldr_or, Bool.eq_iff_iff, List.any_eq_true]
  constructor
  · rintro ⟨k, -, hk⟩
    by_cases hki : k.val = i
    · subst hki
      exact own ▸ hk
    · simp [others k hki] at hk
  · exact fun h => ⟨⟨i, hi⟩, List.mem_finRange _, own.trans h⟩

/-- Lane `i` of a packed port is byte `i`. -/
theorem extractLsb'_packBytes {n i : Nat} (v : Vector Byte n) (hi : i < n) :
    (packBytes v).extractLsb' (laneLow n i) 8 = v[i] := by
  apply BitVec.eq_of_getLsbD_eq
  intro j hj
  rw [BitVec.getLsbD_extractLsb', getLsbD_packBytes v hi hj, decide_eq_true hj, Bool.true_and]

/-- Byte `i` of an unpacked port is its lane `i`. -/
theorem getElem_unpackBytes {n i : Nat} (w : BitVec (n * Config.BYTE_BITS)) (hi : i < n) :
    (unpackBytes w)[i] = w.extractLsb' (laneLow n i) 8 :=
  Vector.getElem_ofFn hi

@[simp] theorem unpackBytes_packBytes {n : Nat} (v : Vector Byte n) : unpackBytes (packBytes v) = v := by
  apply Vector.ext
  intro i hi
  rw [getElem_unpackBytes _ hi, extractLsb'_packBytes v hi]

@[simp] theorem packBytes_unpackBytes {n : Nat} (w : BitVec (n * Config.BYTE_BITS)) :
    packBytes (unpackBytes w) = w :=
  eq_of_lanes_eq fun i hi => by rw [extractLsb'_packBytes _ hi, getElem_unpackBytes w hi]

/-! ### The frame port and the payload port -/

@[simp] theorem unpackFrame_packFrame (f : Frame) : unpackFrame (packFrame f) = f := unpackBytes_packBytes f

@[simp] theorem packFrame_unpackFrame (w : FrameBits) : packFrame (unpackFrame w) = w := packBytes_unpackBytes w

@[simp] theorem unpackPayload_packPayload (p : Payload) : unpackPayload (packPayload p) = p :=
  unpackBytes_packBytes p

@[simp] theorem packPayload_unpackPayload (w : PayloadBits) : packPayload (unpackPayload w) = w :=
  packBytes_unpackBytes w

/-- `F[i]` lies on bits `[111-8*i : 104-8*i]` of the frame port (R18). -/
theorem extractLsb'_packFrame (f : Frame) (i : Nat) (h : i < 14) :
    (packFrame f).extractLsb' (104 - 8 * i) 8 = f[i] := by
  simp only [← unpackFrame_get _ i h, unpackFrame_packFrame]

/-- `P[i]` lies on bits `[63-8*i : 56-8*i]` of the payload port (R18). -/
theorem extractLsb'_packPayload (p : Payload) (i : Nat) (h : i < 8) :
    (packPayload p).extractLsb' (56 - 8 * i) 8 = p[i] := by
  simp only [← unpackPayload_get _ i h, unpackPayload_packPayload]

/-- Settles O19: the lanes of both ports, and the round trips of both packings (R18). -/
theorem packedPortsCarryBytesHighFirst : Obligations.PackedPortsCarryBytesHighFirst :=
  ⟨extractLsb'_packFrame, extractLsb'_packPayload, unpackFrame_packFrame, packFrame_unpackFrame,
    unpackPayload_packPayload, packPayload_unpackPayload⟩

end Sys2Proof.Proofs.PackedPorts

/-! The verdict of `PARSE` in the spec's own words (R97, R126), and the decoder's port, which shows it (R45). -/

namespace Sys2Proof.Proofs.Verdict

open Sys2Proof Sys2Proof.Machine Sys2Proof.Proofs.PackedPorts

/-- The checks of the model are R97's three conditions. -/
theorem frameOk_iff_validFrame (f : Frame) : frameOk f = true ↔ ValidFrame f := by
  rw [frameOk_iff, byteSum_eq, checksumField_eq, ValidFrame, eq_comm (b := 256 * _ + _)]

/-- The lanes decoded with the frame's own key are the eight bytes R126 returns. -/
theorem xorLanes_decodeKey (f : Frame) : xorLanes (decodeKey f) (payloadField f) = decodedLanes f := rfl

theorem parse_of_validFrame {f : Frame} (h : ValidFrame f) : parse f = .valid (decodedLanes f) :=
  (parse_eq_valid_iff f _).2 ⟨(frameOk_iff_validFrame f).2 h, (xorLanes_decodeKey f).symm⟩

theorem parse_of_not_validFrame {f : Frame} (h : ¬ ValidFrame f) : parse f = .invalid := by
  rwa [parse_eq_invalid_iff, ← Bool.not_eq_true, frameOk_iff_validFrame]

/-- With `PARSE(F) = Valid(P)` the port of `F` shows 1 and `pack(P)`. -/
theorem port_of_parse_valid {f : Frame} {p : Payload} (h : parse f = .valid p) :
    portValid (packFrame f) = true ∧ portPayload (packFrame f) = packPayload p := by
  simp only [portValid, portPayload, unpackFrame_packFrame, h, and_self]

/-- With `PARSE(F) = Invalid` the port of `F` shows 0 and all zeros. -/
theorem port_of_parse_invalid {f : Frame} (h : parse f = .invalid) :
    portValid (packFrame f) = false ∧ portPayload (packFrame f) = 0#64 := by
  simp only [portValid, portPayload, unpackFrame_packFrame, h, true_and]
  rfl

/-- Settles O12: the port shows the verdict of the frame driven on it (R45). -/
theorem decoderPortShowsItsVerdict : Obligations.DecoderPortShowsItsVerdict := by
  intro f t hf
  rw [State.pdValid, State.pdPayload, hf]
  exact ⟨fun h => port_of_parse_valid (parse_of_validFrame h),
    fun h => port_of_parse_invalid (parse_of_not_validFrame h)⟩

end Sys2Proof.Proofs.Verdict

/-! The state of the framer (10_state.md): its pins, reset, and what a step does to `BUF`, the source, the
outputs and the decoder's port. -/

namespace Sys2Proof.Proofs.FramerState

open Sys2Proof Sys2Proof.Machine

/-! ### The pins that are functions of the state (R46, R48) -/

theorem busy_iff (s : State) : s.busy = true ↔ s.st ≠ .idle := bne_iff_ne

theorem inReady_iff (s : State) (p : Pins) :
    s.inReady p = true ↔ s.st = .filling ∧ s.buf.length < 14 ∧ p.rdCancel = false := by
  rw [State.inReady, Bool.and_eq_true, Bool.and_eq_true, beq_iff_eq, decide_eq_true_iff, Bool.not_eq_true',
    and_assoc, State.len_eq]

/-- `14 - LEN` fits in the four bits of `req_n` (R105). -/
theorem toNat_reqN (s : State) : s.reqN.toNat = 14 - s.buf.length := by
  rw [State.reqN, BitVec.toNat_ofNat, State.requestSize, State.len_eq]
  exact Nat.mod_eq_of_lt (Nat.lt_of_le_of_lt (Nat.sub_le 14 _) (by decide))

/-- Settles O48: the pins that are functions of the state and `rd_cancel` (R46, R48). -/
theorem framerOutputPins : Obligations.FramerOutputPins :=
  fun s p => ⟨busy_iff s, inReady_iff s p, toNat_reqN s⟩

/-! ### The `RETURN` that is due (R165, R188) -/

/-- A `RETURN` is due exactly when `TRY` would find a valid frame at the front of `BUF`. -/
theorem returnDue_eq_some_iff (s : State) (p : Payload) :
    s.returnDue = some p ↔ s.st = .decoding ∧ ∃ f, takeFrame s.buf = some f ∧ parse f = .valid p := by
  rw [State.returnDue, candidate_eq]
  split
  · next q hst hv =>
    obtain ⟨f, hf, hq⟩ := Option.map_eq_some_iff.1 hv
    simp [hst, hf, hq]
  · next hno =>
    simp only [reduceCtorEq, false_iff]
    rintro ⟨hst, f, hf, hp⟩
    exact hno p hst (by rw [hf, Option.map_some, hp])

theorem returnDue_eq_none_of_st {s : State} (h : s.st ≠ .decoding) : s.returnDue = none :=
  Option.eq_none_iff_forall_ne_some.2 fun p hp => h ((returnDue_eq_some_iff s p).1 hp).1

/-- `TRY` delivers the payload that is due. -/
theorem exec_tryDecode_of_returnDue {s : State} {p : Payload} (h : s.returnDue = some p) :
    exec .tryDecode s = .next (s.deliver p) := by
  obtain ⟨hst, f, hf, hp⟩ := (returnDue_eq_some_iff s p).1 h
  simp only [exec, execTryDecode, hst, candidate_eq, hf, hp]

/-- An operation leaves the output `delivery` alone, or it delivers the payload that is due. -/
theorem exec_delivery {i : Instr} {s t : State} (h : exec i s = .next t) :
    t.delivery = s.delivery ∨ t.delivery = s.returnDue := by
  rcases exec_next_cases h with rfl | ⟨-, ⟨r, rfl⟩ | ⟨f, rfl⟩⟩ | ⟨-, -, rfl⟩ | ⟨m, -, -, rfl⟩ | ⟨-, -, rfl⟩ |
    ⟨-, -, -, rfl⟩ | ⟨-, hst, f, p, hf, hp, rfl⟩ | ⟨-, -, f, -, -, rfl⟩ | ⟨-, -, rfl⟩
  · exact .inl rfl
  · exact .inl rfl
  · exact .inl rfl
  · exact .inl rfl
  · exact .inl rfl
  · exact .inl (State.trimToMarker_delivery s 0)
  · exact .inl rfl
  · exact .inr ((returnDue_eq_some_iff s p).2 ⟨hst, f, hf, hp⟩).symm
  · exact .inl (State.resyncAfterFailure_delivery s)
  · exact .inl rfl

/-! ### Reset (R50) -/

/-- Settles O1: the state after reset and the ports of R50's table. -/
theorem resetStateIsIdleWithEmptyBuffer : Obligations.ResetStateIsIdleWithEmptyBuffer := by
  have noReturn : State.reset.returnDue = none := returnDue_eq_none_of_st (by decide)
  refine ⟨rfl, rfl, rfl, rfl, rfl, fun p => ⟨rfl, ?_⟩⟩
  rw [State.outValid, noReturn, Option.isSome_none, Bool.and_false]

/-- Settles O43: with `BUF` empty and `ST = IDLE` both invariants hold (R50). -/
theorem invariantsHoldAfterReset : Obligations.InvariantsHoldAfterReset :=
  have inv : State.reset.Inv := ⟨Nat.zero_le _, nofun⟩
  ⟨inv, inv, fun _ => rfl, nofun, nofun⟩

/-! ### `out_valid` and `out_payload` (R46, R47) -/

/-- The edge with a `RETURN` due takes `TRY`, whatever the other pins say (R188). -/
theorem clockedOp_of_returnDue {s : State} {q : Payload} (p : Pins) (h : s.returnDue = some q) :
    s.clockedOp p = some .tryDecode := by
  obtain ⟨hst, -⟩ := (returnDue_eq_some_iff s q).1 h
  simp only [State.clockedOp, hst, h, Option.isSome_some, if_true]

/-- An edge delivers the payload that is due, unless it is one of reset (R207). -/
theorem delivery_of_step_clock {s t : State} {p : Pins} {es : List Event}
    (h : step { s with events := .clock p :: es } = .next t) :
    t.delivery = if p.rst then none else s.returnDue := by
  set u : State := { s with events := .clock p :: es }
  have selected_u : u.selected = if p.rst then none else s.clockedOp p := rfl
  have due_u : u.beginStep.returnDue = s.returnDue := rfl
  rcases step_next_cases h with ⟨i, hi, he⟩ | ⟨hi, rfl⟩
  · obtain ⟨hr, hop⟩ : ¬ p.rst = true ∧ s.clockedOp p = some i := by simpa [selected_u] using hi
    rw [if_neg hr]
    cases hd : s.returnDue with
    | some q =>
      obtain rfl : .tryDecode = i := Option.some.inj ((clockedOp_of_returnDue p hd).symm.trans hop)
      rw [exec_tryDecode_of_returnDue (due_u.trans hd)] at he
      cases he
      rfl
    | none => simpa [due_u, hd] using exec_delivery he
  · rw [State.applyEvent_delivery, State.beginStep_delivery]
    cases hd : s.returnDue with
    | some q => simpa [selected_u, clockedOp_of_returnDue p hd] using hi
    | none => simp

/-- Settles O49: the edge delivers what `out_valid` and `out_payload` show in its cycle (R46, R47). -/
theorem outValidMarksTheReturnCycle : Obligations.OutValidMarksTheReturnCycle := by
  intro s t p es h
  rw [delivery_of_step_clock h, State.outValid, State.outPayload]
  cases p.rst <;> simp

/-! ### Where a step moves bytes (R32, R83) -/

/-- A trim leaves bytes at the end of the buffer it trims (R71, R73). -/
theorem trimToMarker_buf_suffix (s : State) (k : Nat) : (s.trimToMarker k).buf <:+ s.buf := by
  obtain ⟨lost, kept, e, -, -, hk⟩ := trimToMarker_buf_spec s k
  rw [hk]
  exact (e ▸ List.suffix_append lost kept : kept <:+ s.buf.drop k).trans (List.drop_suffix k s.buf)

/-- An operation takes bytes from the front of the source to the end of `BUF`, or it leaves the source alone
and keeps an end of `BUF`. -/
theorem exec_buf_source {i : Instr} {s t : State} (h : exec i s = .next t) :
    (∃ m ≤ 14 - s.buf.length, t.buf = s.buf ++ s.source.take m ∧ t.source = s.source.drop m) ∨
      t.buf <:+ s.buf ∧ t.source = s.source := by
  rcases exec_next_cases h with rfl | ⟨-, ⟨r, rfl⟩ | ⟨f, rfl⟩⟩ | ⟨-, -, rfl⟩ | ⟨m, -, -, rfl⟩ | ⟨-, -, rfl⟩ |
    ⟨-, -, -, rfl⟩ | ⟨-, -, f, p, -, -, rfl⟩ | ⟨-, -, f, -, -, rfl⟩ | ⟨-, -, rfl⟩
  · exact .inr ⟨List.suffix_refl _, rfl⟩
  · exact .inr ⟨List.suffix_refl _, rfl⟩
  · exact .inr ⟨List.suffix_refl _, rfl⟩
  · exact .inr ⟨List.suffix_refl _, rfl⟩
  · exact .inl ⟨min m s.requestSize, Nat.min_le_right _ _, rfl, rfl⟩
  · exact .inr ⟨trimToMarker_buf_suffix s 0, State.trimToMarker_source s 0⟩
  · exact .inr ⟨List.suffix_refl _, rfl⟩
  · exact .inr ⟨List.drop_suffix 14 s.buf, rfl⟩
  · exact .inr ⟨trimToMarker_buf_suffix s 1, State.resyncAfterFailure_source s⟩
  · exact .inr ⟨List.suffix_refl _, rfl⟩

/-- Only an event that selects no operation brings bytes. -/
theorem bytes_of_selected {s : State} {i : Instr} (h : s.selected = some i) : s.nextEvent.bytes = [] := by
  rw [State.selected] at h
  cases he : s.nextEvent with
  | arrive bs => rw [he] at h; cases h
  | quiet | op | present | reset | clock => rfl

/-- An event by itself keeps `BUF` or empties it, and brings its bytes to the end of the source. -/
theorem applyEvent_buf_source (s : State) (e : Event) :
    (s.applyEvent e).buf <:+ s.buf ∧ (s.applyEvent e).source = s.source ++ e.bytes := by
  cases e with
  | quiet | op | present => exact ⟨List.suffix_refl _, (List.append_nil _).symm⟩
  | arrive bs => exact ⟨List.suffix_refl _, rfl⟩
  | reset => exact ⟨List.nil_suffix, (List.append_nil _).symm⟩
  | clock p =>
    rw [State.applyEvent]
    split
    · exact ⟨List.nil_suffix, (List.append_nil _).symm⟩
    · exact ⟨List.suffix_refl _, (List.append_nil _).symm⟩

/-- What is left after bytes leave the front is the list without its first `k` bytes. -/
theorem exists_drop_of_suffix {kept b : List Byte} (h : kept <:+ b) : ∃ k ≤ b.length, kept = b.drop k :=
  ⟨b.length - kept.length, Nat.sub_le _ _, List.suffix_iff_eq_drop.1 h⟩

/-- Settles O37: an operation appends or trims, an event without one empties `BUF` or brings bytes to the
source (R32, R83). -/
theorem bufferChangesOnlyByAppendOrTrim : Obligations.BufferChangesOnlyByAppendOrTrim := by
  intro s t h
  rcases step_next_cases h with ⟨i, hi, he⟩ | ⟨-, rfl⟩
  · have noBytes := bytes_of_selected hi
    rcases exec_buf_source he with ⟨m, hm, hb, hs⟩ | ⟨hb, hs⟩
    · exact .inl ⟨m, hm, hb, hs, noBytes⟩
    · obtain ⟨k, hk, e⟩ := exists_drop_of_suffix hb
      exact .inr ⟨k, hk, e, by rw [noBytes, List.append_nil, hs, State.beginStep_source]⟩
  · obtain ⟨hb, hs⟩ := applyEvent_buf_source s.beginStep s.nextEvent
    obtain ⟨k, hk, e⟩ := exists_drop_of_suffix hb
    exact .inr ⟨k, hk, e, hs⟩

/-! ### The decoder's port and the framer (R30, R52) -/

/-- The same state with `w` driven on the decoder's port (R44). -/
def driven (s : State) (w : FrameBits) : State := { s with frame := w }

@[simp] theorem driven_buf (s : State) (w : FrameBits) : (driven s w).buf = s.buf := rfl
@[simp] theorem driven_st (s : State) (w : FrameBits) : (driven s w).st = s.st := rfl
@[simp] theorem driven_candidate (s : State) (w : FrameBits) : (driven s w).candidate = s.candidate := rfl
@[simp] theorem driven_setSt (s : State) (w : FrameBits) (x : St) :
    (driven s w).setSt x = driven (s.setSt x) w := rfl
@[simp] theorem driven_trimFront (s : State) (w : FrameBits) (k : Nat) :
    (driven s w).trimFront k = driven (s.trimFront k) w := rfl
@[simp] theorem driven_deliver (s : State) (w : FrameBits) (p : Payload) :
    (driven s w).deliver p = driven (s.deliver p) w := rfl

/-- The answer to `FILL`'s request does not depend on the port. -/
@[simp] theorem driven_fill (s : State) (w : FrameBits) (m : Nat) :
    (driven s w).srcRequest (driven s w).requestSize m = driven (s.srcRequest s.requestSize m) w := rfl

@[simp] theorem driven_trimToMarker (s : State) (w : FrameBits) (k : Nat) :
    (driven s w).trimToMarker k = driven (s.trimToMarker k) w := by
  simp only [State.trimToMarker, State.len_eq, driven_buf, driven_trimFront]
  split <;> rfl

@[simp] theorem driven_resyncAfterFailure (s : State) (w : FrameBits) :
    (driven s w).resyncAfterFailure = driven s.resyncAfterFailure w := by
  simp only [State.resyncAfterFailure, driven_trimToMarker, driven_setSt]

/-- An operation of the framer does the same whatever is driven on the decoder's port, and leaves it there. -/
theorem exec_framer_driven {i : Instr} {s t : State} (w : FrameBits) (hi : decoderSide i = false)
    (h : exec i s = .next t) : exec i (driven s w) = .next (driven t w) := by
  cases i with
  | valid | invalid | chks | chke | csum | ccmp | keyd | xdec | parse | encode => cases hi
  | read =>
    simp only [exec, execRead, driven_st, driven_setSt] at h ⊢
    split at h <;> cases h <;> rfl
  | fill m =>
    simp only [exec, execFill, driven_st, driven_fill, driven_setSt] at h ⊢
    split at h <;> cases h <;> rfl
  | resync0 =>
    simp only [exec, execResync0, driven_st, driven_trimToMarker, driven_setSt] at h ⊢
    split at h <;> cases h <;> rfl
  | cancel =>
    simp only [exec, execCancel, driven_st, driven_setSt] at h ⊢
    split at h <;> cases h <;> rfl
  | tryDecode =>
    simp only [exec, execTryDecode, driven_st, driven_candidate, driven_setSt, driven_deliver,
      driven_resyncAfterFailure] at h ⊢
    split at h
    · split at h
      · cases h; rfl
      · split at h <;> cases h <;> rfl
    · cases h; rfl
  | resync1 =>
    simp only [exec, execResync1, driven_st, driven_candidate, driven_resyncAfterFailure] at h ⊢
    split at h <;> cases h <;> rfl
  | returnPayload =>
    simp only [exec, execReturnPayload, driven_st, driven_candidate, driven_deliver] at h ⊢
    split at h <;> cases h <;> rfl

/-- An operation of the decoder's side answers the same whatever is driven on the port, and leaves that value
there or drives its own (R130). -/
theorem exec_decoder_driven {i : Instr} {s t : State} (w : FrameBits) (hi : decoderSide i = true)
    (h : exec i s = .next t) : ∃ w', exec i (driven s w) = .next (driven t w') := by
  cases i with
  | read | fill | resync0 | tryDecode | resync1 | returnPayload | cancel => cases hi
  | valid f | invalid f => cases h; exact ⟨packFrame f, rfl⟩
  | chks | chke | csum | ccmp | keyd | xdec | encode => cases h; exact ⟨w, rfl⟩
  | parse c =>
    simp only [exec, execParse] at h ⊢
    split at h
    · next f hf => cases h; exact ⟨packFrame f, rfl⟩
    · cases h

/-- What is driven on the port before an operation changes nothing but what is driven after it. -/
theorem exec_driven {i : Instr} {s t : State} (w : FrameBits) (h : exec i s = .next t) :
    ∃ w', exec i (driven s w) = .next (driven t w') := by
  cases hi : decoderSide i with
  | true => exact exec_decoder_driven w hi h
  | false => exact ⟨w, exec_framer_driven w hi h⟩

theorem applyEvent_driven (s : State) (w : FrameBits) (e : Event) :
    (driven s w).applyEvent e = driven (s.applyEvent e) w := by
  cases e with
  | quiet | op | present | arrive | reset => rfl
  | clock p =>
    simp only [State.applyEvent]
    split <;> rfl

/-- A step from a state with something else driven and put out before goes to the same state, but for what
is driven. -/
theorem step_driven {s t : State} (w : FrameBits) (r : Option Result) (d : Option Payload)
    (h : step s = .next t) :
    ∃ w', step { s with frame := w, result := r, delivery := d } = .next (driven t w') := by
  set u : State := { s with frame := w, result := r, delivery := d }
  have selected_u : u.selected = s.selected := rfl
  have beginStep_u : u.beginStep = driven s.beginStep w := rfl
  rcases step_next_cases h with ⟨i, hi, he⟩ | ⟨hi, rfl⟩
  · rw [step_of_selected (selected_u.trans hi), beginStep_u]
    exact exec_driven w he
  · rw [step_of_not_selected (selected_u.trans hi), beginStep_u, applyEvent_driven]
    exact ⟨w, rfl⟩

/-- Settles O40: the decoder's port and the outputs put out before decide nothing in the framer (R30, R52). -/
theorem framerIgnoresTheDecoderPort : Obligations.FramerIgnoresTheDecoderPort := by
  intro s t w r d h
  obtain ⟨w', h'⟩ := step_driven w r d h
  exact ⟨driven t w', h', rfl, rfl, rfl, rfl, rfl⟩

end Sys2Proof.Proofs.FramerState

/-! `PARSE` of a byte list as a function of the candidate's frame (20_memory.md R64). -/

namespace Sys2Proof.Proofs.Candidates

open Sys2Proof Sys2Proof.Machine

/-- Fewer than 14 bytes give no frame, so `PARSE` has no result (R64, log 10). -/
theorem exec_parse_of_length_lt {c : List Byte} (h : c.length < 14) (s : State) :
    exec (.parse c) s = .refused .shortCandidate := by
  rcases exec_parse c s with ⟨-, refused⟩ | ⟨f, hf, -⟩
  · exact refused
  · cases hf.symm.trans ((takeFrame_eq_none_iff c).2 h)

/-- `PARSE` depends on its candidate only through the frame at its front. -/
theorem exec_parse_of_takeFrame {c : List Byte} {f : Frame} (h : takeFrame c = some f) (s : State) :
    exec (.parse c) s = .next (s.drivePort f) := by
  rcases exec_parse c s with ⟨short, -⟩ | ⟨g, hg, driven⟩
  · cases h.symm.trans ((takeFrame_eq_none_iff c).2 short)
  · cases h.symm.trans hg
    exact driven

theorem exists_takeFrame_of_le_length {c : List Byte} (h : 14 ≤ c.length) : ∃ f, takeFrame c = some f :=
  Option.ne_none_iff_exists'.1 fun none => Nat.not_lt.2 h ((takeFrame_eq_none_iff c).1 none)

/-- Cutting a candidate after its 14th byte leaves its frame. -/
theorem takeFrame_take_of_takeFrame {c : List Byte} {f : Frame} (h : takeFrame c = some f) :
    takeFrame (c.take 14) = some f := by
  rw [(takeFrame_eq_some_iff c f).1 h, takeFrame_toList]

/-- Settles O10: both the candidate and its first 14 bytes put the same frame on the port (R64). -/
theorem parseRefusesShortCandidates : Obligations.ParseRefusesShortCandidates := by
  intro c s
  refine ⟨fun short => exec_parse_of_length_lt short s, fun long => ?_⟩
  obtain ⟨f, hf⟩ := exists_takeFrame_of_le_length long
  have parse_c := exec_parse_of_takeFrame hf s
  have parse_take := exec_parse_of_takeFrame (takeFrame_take_of_takeFrame hf) s
  exact ⟨parse_c.trans parse_take.symm, s.drivePort f, parse_c⟩

end Sys2Proof.Proofs.Candidates

/-! Valid frames (30_encoding.md R97, R98): the verdict of `PARSE` and of the two frame rows, and the one way
to complete ten bytes 1 to 10 to a valid frame. -/

namespace Sys2Proof.Proofs.ValidFrames

open Sys2Proof Sys2Proof.Machine Sys2Proof.Proofs.Verdict

theorem parse_ne_invalid_iff (f : Frame) : parse f ≠ .invalid ↔ ValidFrame f := by
  rw [Ne, parse_eq_invalid_iff, Bool.not_eq_false, frameOk_iff_validFrame]

/-! ### The rows `VALID` and `INVALID` (R97) -/

theorem wellFormed_valid_iff (f : Frame) : WellFormed (.valid f) ↔ ValidFrame f :=
  frameOk_iff_validFrame f

theorem wellFormed_invalid_iff (f : Frame) : WellFormed (.invalid f) ↔ ¬ ValidFrame f :=
  Bool.not_iff_not.trans (not_congr (frameOk_iff_validFrame f))

/-- A frame driven on the port changes the port and the answer, and nothing else (R44, R45). -/
theorem drivePort_of_parse {f : Frame} {v : Verdict} (h : parse f = v) (s : State) :
    s.drivePort f = { s with frame := packFrame f, result := some (.verdict v) } := by
  subst h
  rfl

/-- Settles O11: both rows drive the frame on the port, which answers its verdict (R97). -/
theorem frameRowsAnswerTheirVerdict : Obligations.FrameRowsAnswerTheirVerdict := by
  intro f s
  refine ⟨packFrame f, fun valid => ?_, fun notValid => ?_⟩
  · refine ⟨(wellFormed_valid_iff f).2 valid, fun wf => (wellFormed_invalid_iff f).1 wf valid, ?_⟩
    rw [exec_valid, drivePort_of_parse (parse_of_validFrame valid)]
  · refine ⟨(wellFormed_invalid_iff f).2 notValid, fun wf => notValid ((wellFormed_valid_iff f).1 wf), ?_⟩
    rw [exec_invalid, drivePort_of_parse (parse_of_not_validFrame notValid)]

/-! ### The checksum field (R92, R127) -/

theorem sumBytes_le (bs : List Byte) : sumBytes bs ≤ 255 * bs.length := by
  induction bs with
  | nil => exact Nat.le_refl 0
  | cons b bs ih =>
    have := byte_toNat_lt b
    rw [sumBytes_cons, List.length_cons]
    omega

/-- Ten bytes sum to at most 2550 (R127). -/
theorem sumBytes_region_le (r : Region) : sumBytes r.toList ≤ 2550 :=
  (sumBytes_le r.toList).trans_eq (congrArg (255 * ·) (Vector.length_toList ..))

/-- The two bytes of the checksum field are the digits of its value to the base 256 (R92). -/
theorem checksumField_eq_iff (f : Frame) {s : Nat} (hs : s < 65536) :
    checksumField f = s ↔ f[11] = BitVec.ofNat 8 (s / 256) ∧ f[12] = BitVec.ofNat 8 (s % 256) := by
  have hi := byte_toNat_lt f[11]
  have lo := byte_toNat_lt f[12]
  simp only [checksumField_eq, ← BitVec.toNat_inj, BitVec.toNat_ofNat, Config.BYTE_BITS]
  omega

/-! ### The one completion of ten bytes (R98) -/

theorem checksumRegion_eq_iff (f : Frame) (r : Region) :
    checksumRegion f = r ↔ ∀ (i : Nat) (h : i < 10), f[i + 1]'(by change _ < 14; omega) = r[i] := by
  rw [Vector.ext_iff]
  exact forall₂_congr fun i h => by rw [checksumRegion_get f i h]

theorem checksumRegion_closeFrame (r : Region) : checksumRegion (closeFrame r) = r :=
  (checksumRegion_eq_iff _ r).2 (closeFrame_region r)

/-- The bytes of a closed region at the offsets outside the region (R131). -/
theorem closeFrame_outside (r : Region) :
    (closeFrame r)[0] = 0x02#8 ∧ (closeFrame r)[13] = 0x03#8 ∧
      (closeFrame r)[11] = BitVec.ofNat 8 (sumBytes r.toList / 256) ∧
      (closeFrame r)[12] = BitVec.ofNat 8 (sumBytes r.toList % 256) := by
  simp [closeFrame_eq]

/-- The frame that `closeFrame` builds around ten bytes meets the three conditions of R97. -/
theorem validFrame_closeFrame (r : Region) : ValidFrame (closeFrame r) := by
  rw [← frameOk_iff_validFrame, frameOk_iff, byteSum, checksumRegion_closeFrame, eq_comm (a := sumBytes _),
    checksumField_eq_iff _ (Nat.lt_of_le_of_lt (sumBytes_region_le r) (by decide))]
  exact closeFrame_outside r

/-- A valid frame is the one built around its own bytes 1 to 10: the markers and the checksum are forced. -/
theorem eq_closeFrame_of_validFrame {f : Frame} (valid : ValidFrame f) : f = closeFrame (checksumRegion f) := by
  obtain ⟨startMarker, endMarker, sum⟩ := (frameOk_iff f).1 ((frameOk_iff_validFrame f).2 valid)
  obtain ⟨high, low⟩ := (checksumField_eq_iff f
    (Nat.lt_of_le_of_lt (sumBytes_region_le _) (by decide))).1 sum.symm
  obtain ⟨builtStart, builtEnd, builtHigh, builtLow⟩ := closeFrame_outside (checksumRegion f)
  apply Vector.ext
  intro i hi
  obtain rfl | ⟨j, hj, rfl⟩ | rfl | rfl | rfl :
      i = 0 ∨ (∃ j < 10, i = j + 1) ∨ i = 11 ∨ i = 12 ∨ i = 13 := by
    change i < 14 at hi
    by_cases region : 1 ≤ i ∧ i ≤ 10
    · exact .inr (.inl ⟨i - 1, by omega, by omega⟩)
    · omega
  · exact startMarker.trans builtStart.symm
  · rw [closeFrame_region _ j hj, checksumRegion_get f j hj]
  · exact high.trans builtHigh.symm
  · exact low.trans builtLow.symm
  · exact endMarker.trans builtEnd.symm

/-- The valid completions of ten bytes are one frame. -/
theorem validCompletion_iff (f : Frame) (r : Region) :
    (parse f ≠ .invalid ∧ ∀ (i : Nat) (h : i < 10), f[i + 1]'(by change _ < 14; omega) = r[i]) ↔
      f = closeFrame r := by
  rw [parse_ne_invalid_iff, ← checksumRegion_eq_iff]
  constructor
  · rintro ⟨valid, rfl⟩
    exact eq_closeFrame_of_validFrame valid
  · rintro rfl
    exact ⟨validFrame_closeFrame r, checksumRegion_closeFrame r⟩

theorem checksumField_le_of_validFrame {f : Frame} (valid : ValidFrame f) : checksumField f ≤ 0x09F6 := by
  obtain ⟨-, -, sum⟩ := (frameOk_iff f).1 ((frameOk_iff_validFrame f).2 valid)
  exact sum ▸ sumBytes_region_le _

/-- Settles O13: the completion is the frame `closeFrame` builds, and the bound is that of the sum (R98). -/
theorem tenBytesHaveOneValidCompletion : Obligations.TenBytesHaveOneValidCompletion := by
  refine ⟨fun r => ⟨closeFrame r, (validCompletion_iff _ r).2 rfl, fun f => (validCompletion_iff f r).1⟩,
    fun f accepted => ?_⟩
  have bound := checksumField_le_of_validFrame ((parse_ne_invalid_iff f).1 accepted)
  rw [checksumField_eq] at bound
  omega

end Sys2Proof.Proofs.ValidFrames

/-! The encodings (30_encoding.md): the classifier of R107, the decoder and the encoder of frames (R64, R96,
R101), and the codes of `ST` (R106). -/

namespace Sys2Proof.Proofs.Encoding

open Sys2Proof Sys2Proof.Machine
open Sys2Proof.Proofs.PackedPorts Sys2Proof.Proofs.Verdict Sys2Proof.Proofs.ValidFrames
open Sys2Proof.Proofs.Candidates

/-! ### The row of the valid frame (R107) -/

/-- The mask looks at the two marker bytes and at no other. -/
theorem lane_validRow_mask : ∀ i : Fin 14,
    validRow.mask.extractLsb' (laneLow 14 i) 8 = if i = 0 ∨ i = 13 then BitVec.allOnes 8 else 0#8 := by
  decide

/-- The match holds the two markers and is zero elsewhere. -/
theorem lane_validRow_pattern : ∀ i : Fin 14,
    validRow.pattern.extractLsb' (laneLow 14 i) 8 =
      if i = 0 then 0x02#8 else if i = 13 then 0x03#8 else 0#8 := by
  decide

/-- What the mask leaves of a frame on the port: its two marker bytes. -/
theorem lane_masked (f : Frame) (i : Fin 14) :
    (packFrame f &&& validRow.mask).extractLsb' (laneLow 14 i) 8 = if i = 0 ∨ i = 13 then f[i] else 0#8 := by
  rw [BitVec.extractLsb'_and, lane_validRow_mask i, packFrame, extractLsb'_packBytes f i.isLt]
  split
  · exact BitVec.and_allOnes
  · exact BitVec.and_zero

/-- The masked bits match exactly when both markers are in place. -/
theorem masked_eq_pattern_iff (f : Frame) :
    packFrame f &&& validRow.mask = validRow.pattern ↔ f[0] = 0x02#8 ∧ f[13] = 0x03#8 := by
  constructor
  · intro h
    have lanes (i : Fin 14) := (lane_masked f i).symm.trans
      ((congrArg (·.extractLsb' (laneLow 14 i) 8) h).trans (lane_validRow_pattern i))
    exact ⟨lanes 0, lanes 13⟩
  · rintro ⟨startMarker, endMarker⟩
    refine eq_of_lanes_eq (n := 14) fun i hi => ?_
    refine (lane_masked f ⟨i, hi⟩).trans (Eq.trans ?_ (lane_validRow_pattern ⟨i, hi⟩).symm)
    by_cases first : (⟨i, hi⟩ : Fin 14) = 0
    · simpa [first] using startMarker
    · by_cases last : (⟨i, hi⟩ : Fin 14) = 13
      · simpa [last] using endMarker
      · simp [first, last]

/-! ### The classifier (R97, R107) -/

/-- The row's mask, match and constraint are R97's three conditions. -/
theorem validRow_fits_iff (f : Frame) : validRow.fits f = true ↔ ValidFrame f := by
  have constraint : validRow.constraint f = true ↔ byteSum f = checksumField f := beq_iff_eq.trans eq_comm
  rw [FramePattern.fits, Bool.and_eq_true, beq_iff_eq, masked_eq_pattern_iff, constraint, and_assoc,
    ← frameOk_iff, frameOk_iff_validFrame]

theorem classify_of_validFrame {f : Frame} (h : ValidFrame f) : classify f = .valid f :=
  if_pos ((validRow_fits_iff f).2 h)

theorem classify_of_not_validFrame {f : Frame} (h : ¬ ValidFrame f) : classify f = .invalid f :=
  if_neg (mt (validRow_fits_iff f).1 h)

/-- Settles O21: mask, match and constraint together say that the frame is valid (R107). -/
theorem classifierFollowsMaskAndConstraint : Obligations.ClassifierFollowsMaskAndConstraint := by
  intro f
  rw [← validRow_mask, ← validRow_pattern, masked_eq_pattern_iff, and_assoc]
  exact ⟨fun valid => ⟨classify_of_validFrame valid, (parse_ne_invalid_iff f).2 valid⟩,
    fun notValid => ⟨classify_of_not_validFrame notValid, parse_of_not_validFrame notValid⟩⟩

/-! ### The decoder and the encoder (R64, R90, R96, R101) -/

theorem decode_of_takeFrame {bytes : List Byte} {f : Frame} (h : takeFrame bytes = some f) :
    decode bytes = .ok (classify f, bytes.drop 14) := by
  rw [decode, h]

theorem decode_of_length_lt {bytes : List Byte} (h : bytes.length < 14) : decode bytes = .error .shortFrame := by
  rw [decode, (takeFrame_eq_none_iff bytes).2 h]

/-- What decodes is a frame, classified, and what is left over. -/
theorem decode_eq_ok_iff (bytes rest : List Byte) (i : Instr) :
    decode bytes = .ok (i, rest) ↔ ∃ f : Frame, i = classify f ∧ bytes = f.toList ++ rest := by
  constructor
  · intro decoded
    rcases Nat.lt_or_ge bytes.length 14 with short | long
    · cases (decode_of_length_lt short).symm.trans decoded
    · obtain ⟨f, hf⟩ := exists_takeFrame_of_le_length long
      cases (decode_of_takeFrame hf).symm.trans decoded
      exact ⟨f, rfl, takeFrame_split hf⟩
  · rintro ⟨f, rfl, rfl⟩
    rw [decode_of_takeFrame (takeFrame_append f rest), List.drop_left' (by simp)]

/-- Only the two frame rows have bits, and they have the bytes of their frame (R96). -/
theorem encode_eq_some_iff (i : Instr) (ws : List Byte) :
    encode i = some ws ↔ ∃ f : Frame, (i = .valid f ∨ i = .invalid f) ∧ ws = f.toList := by
  constructor
  · intro encoded
    cases i
    case valid f => exact ⟨f, .inl rfl, (Option.some.inj encoded).symm⟩
    case invalid f => exact ⟨f, .inr rfl, (Option.some.inj encoded).symm⟩
    all_goals cases encoded
  · rintro ⟨f, rfl | rfl, rfl⟩ <;> rfl

/-- Of the two rows of one frame the well-formed one is the classifier's (R97: there is no third class). -/
theorem wellFormed_frameRow_iff (i : Instr) (f : Frame) :
    WellFormed i ∧ (i = .valid f ∨ i = .invalid f) ↔ i = classify f := by
  by_cases h : ValidFrame f
  · rw [classify_of_validFrame h]
    constructor
    · rintro ⟨wf, rfl | rfl⟩
      · rfl
      · exact absurd h ((wellFormed_invalid_iff f).1 wf)
    · rintro rfl
      exact ⟨(wellFormed_valid_iff f).2 h, .inl rfl⟩
  · rw [classify_of_not_validFrame h]
    constructor
    · rintro ⟨wf, rfl | rfl⟩
      · exact absurd ((wellFormed_valid_iff f).1 wf) h
      · rfl
    · rintro rfl
      exact ⟨(wellFormed_invalid_iff f).2 h, .inr rfl⟩

/-- The decoder is the inverse of the encoder on well-formed operations: both speak of a classified frame. -/
theorem decode_eq_ok_iff_encode (bytes rest : List Byte) (i : Instr) :
    decode bytes = .ok (i, rest) ↔ WellFormed i ∧ ∃ ws, encode i = some ws ∧ bytes = ws ++ rest := by
  rw [decode_eq_ok_iff]
  constructor
  · rintro ⟨f, hi, hbytes⟩
    obtain ⟨wf, row⟩ := (wellFormed_frameRow_iff i f).2 hi
    exact ⟨wf, f.toList, (encode_eq_some_iff i _).2 ⟨f, row, rfl⟩, hbytes⟩
  · rintro ⟨wf, ws, encoded, hbytes⟩
    obtain ⟨f, row, rfl⟩ := (encode_eq_some_iff i ws).1 encoded
    exact ⟨f, (wellFormed_frameRow_iff i f).1 ⟨wf, row⟩, hbytes⟩

/-- Settles O22: decode and encode are inverse to each other (R90, R96, R101, R107). -/
theorem decodeAndEncodeAgree : Obligations.DecodeAndEncodeAgree :=
  ⟨fun i ws rest wf encoded => (decode_eq_ok_iff_encode _ rest i).2 ⟨wf, ws, encoded, rfl⟩,
    fun bytes rest i => (decode_eq_ok_iff_encode bytes rest i).1⟩

/-- Settles O23: the decoder needs the 14 bytes of one frame and nothing else (R64, R101). -/
theorem decodeIsTotalFromFourteenBytes : Obligations.DecodeIsTotalFromFourteenBytes := by
  intro bytes
  refine ⟨decode_of_length_lt, fun long => ?_⟩
  obtain ⟨f, hf⟩ := exists_takeFrame_of_le_length long
  exact ⟨f, (takeFrame_eq_some_iff bytes f).1 hf, decode_of_takeFrame hf⟩

/-! ### Frames as table words (R18, R107) -/

/-- A 112-bit word decodes to the row of the frame it carries. -/
theorem decodeTableWord_eq {w : Nat} {f : Frame} (h : unpackFrame (BitVec.ofNat 112 w) = f) :
    decodeTableWord 112 w = some (classify f) := by
  subst h
  rw [decodeTableWord, decode_of_takeFrame (takeFrame_toList _)]
  exact if_pos rfl

theorem decodeTableWord_of_frameOk {w : Nat} {f : Frame} (h : unpackFrame (BitVec.ofNat 112 w) = f)
    (accepted : frameOk f = true) : decodeTableWord 112 w = some (.valid f) := by
  rw [decodeTableWord_eq h, classify_of_validFrame ((frameOk_iff_validFrame f).1 accepted)]

theorem decodeTableWord_of_not_frameOk {w : Nat} {f : Frame} (h : unpackFrame (BitVec.ofNat 112 w) = f)
    (rejected : ¬ frameOk f = true) : decodeTableWord 112 w = some (.invalid f) := by
  rw [decodeTableWord_eq h, classify_of_not_validFrame (mt (frameOk_iff_validFrame f).2 rejected)]

/-- Settles O24: V1, V4 and V5 pass the three checks; V9, V14 and V17 fail the third. -/
theorem specFrameWordsDecodeToTheirRow : Obligations.SpecFrameWordsDecodeToTheirRow :=
  ⟨decodeTableWord_of_frameOk (by decide) (by decide), decodeTableWord_of_frameOk (by decide) (by decide),
    decodeTableWord_of_frameOk (by decide) (by decide), decodeTableWord_of_not_frameOk (by decide) (by decide),
    decodeTableWord_of_not_frameOk (by decide) (by decide),
    decodeTableWord_of_not_frameOk (by decide) (by decide)⟩

/-! ### The codes of `ST` (R106) -/

theorem ofCode_code (x : St) : St.ofCode x.code = x := by
  cases x <;> rfl

theorem code_ofCode : ∀ c : BitVec 2, (St.ofCode c).code = c := by
  decide

/-- Settles O20: the four codes of R106, each the code of one state. -/
theorem stateCodesAreTheSpecs : Obligations.StateCodesAreTheSpecs :=
  ⟨rfl, rfl, rfl, rfl, ofCode_code, code_ofCode⟩

end Sys2Proof.Proofs.Encoding

/-! The parts of the Packet Decoder (40_packet_decoder.md R120 to R125, R127): the marker checks, the byte sum
and its comparison, the key and the XOR lanes. -/

namespace Sys2Proof.Proofs.DecoderParts

open Sys2Proof Sys2Proof.Machine Sys2Proof.Proofs.ValidFrames

/-! ### The marker checks (R120, R121) -/

theorem startOk_eq_decide (f : Frame) : startOk f = decide (f[0] = 0x02#8) :=
  Bool.eq_iff_iff.2 ((startOk_iff f).trans decide_eq_true_iff.symm)

theorem endOk_eq_decide (f : Frame) : endOk f = decide (f[13] = 0x03#8) :=
  Bool.eq_iff_iff.2 ((endOk_iff f).trans decide_eq_true_iff.symm)

/-- Settles O3: each check answers the comparison of its byte (R120, R121). -/
theorem markerChecksCompareTheirByte : Obligations.MarkerChecksCompareTheirByte := by
  intro f s
  rw [exec_chks, exec_chke, startOk_eq_decide, endOk_eq_decide]
  exact ⟨rfl, rfl⟩

/-! ### The byte sum and its comparison (R122, R123, R127) -/

/-- Ten bytes of at most 255 sum to at most 2550 (R127). -/
theorem byteSum_le (f : Frame) : byteSum f ≤ 2550 := sumBytes_region_le (checksumRegion f)

/-- A modulus above 2550 leaves the byte sum as it is (R127). -/
theorem byteSum_mod (f : Frame) {m : Nat} (hm : 2550 < m) : byteSum f % m = byteSum f :=
  Nat.mod_eq_of_lt ((byteSum_le f).trans_lt hm)

theorem sumOk_eq_decide (n : Nat) (f : Frame) : sumOk n f = decide (n = 256 * f[11].toNat + f[12].toNat) := by
  rw [sumOk, checksumField_eq, beq_eq_decide]

/-- Settles O4: the answer is the sum of the ten bytes, and its bound is below 4096 (R122). -/
theorem byteSumAddsBytesOneToTen : Obligations.ByteSumAddsBytesOneToTen :=
  fun f s => ⟨byteSum f, exec_csum f s, byteSum_eq f, byteSum_le f, (byteSum_le f).trans_lt (by decide)⟩

/-- Settles O6: the comparison with the field of bytes 11 and 12 (R123). -/
theorem checksumComparisonIsExact : Obligations.ChecksumComparisonIsExact := by
  intro n f s
  rw [exec_ccmp, sumOk_eq_decide]
  rfl

/-- Settles O5: the sum is below either modulus, so each reduction gives back the sum itself (R127). -/
theorem checksumSumNeverOverflows : Obligations.ChecksumSumNeverOverflows := by
  intro f s t h
  cases h
  refine ⟨byteSum f, rfl, byteSum_le f, ?_, ?_⟩ <;> rw [byteSum_mod f (by decide)]

/-! ### The key (R124) -/

/-- Decoding a byte twice with one key gives it back: encoding and decoding are one operation. -/
theorem xor_key_involutive (key : Byte) : Function.Involutive fun b : Byte => b ^^^ key := by
  intro b
  simp only [BitVec.xor_assoc, BitVec.xor_self, BitVec.xor_zero]

/-- The bits set in 0x26. -/
theorem getLsbD_keyConst : ∀ j < 8, (0x26#8).getLsbD j = decide (j = 5 ∨ j = 2 ∨ j = 1) := by
  decide

/-- Settles O7: XOR inverts the bits set in 0x26, and is its own inverse (R124). -/
theorem keyIsRawKeyWithThreeBitsInverted : Obligations.KeyIsRawKeyWithThreeBitsInverted := by
  refine ⟨fun f s => exec_keyd f s, fun b j hj => ?_, (xor_key_involutive 0x26#8).bijective⟩
  rw [BitVec.getLsbD_xor, getLsbD_keyConst j hj, Bool.bne_eq_xor]

/-! ### The lanes (R125) -/

/-- Lane `i` decodes frame byte `3 + i`. -/
theorem xorLanes_payloadField_get (key : Byte) (f : Frame) (i : Nat) (h : i < 8) :
    (xorLanes key (payloadField f))[i] = f[3 + i]'(by change _ < 14; omega) ^^^ key := by
  simp only [xorLanes_get _ _ i h, payloadField_get f i h, Nat.add_comm 3 i]

/-- Settles O8: lane by lane (R125). -/
theorem xorDecodeLanes : Obligations.XorDecodeLanes :=
  fun key f s => ⟨xorLanes key (payloadField f), exec_xdec key f s, xorLanes_payloadField_get key f⟩

end Sys2Proof.Proofs.DecoderParts

/-! `PARSE` and `ENCODE` (40_packet_decoder.md R126, R131, R132): the frame a sender builds, and how the two
undo each other. -/

namespace Sys2Proof.Proofs.ParseEncode

open Sys2Proof Sys2Proof.Machine
open Sys2Proof.Proofs.Verdict Sys2Proof.Proofs.Candidates Sys2Proof.Proofs.ValidFrames
open Sys2Proof.Proofs.DecoderParts

/-! ### `PARSE` (R126) -/

/-- Settles O9: the first 14 bytes are driven on the port, which answers their verdict (R126). -/
theorem parseDecodesExactlyTheValidFrames : Obligations.ParseDecodesExactlyTheValidFrames := by
  intro f rest s
  have driven := exec_parse_of_takeFrame (takeFrame_append f rest) s
  refine ⟨packFrame f, fun valid => ?_, fun notValid => ?_⟩
  · rw [driven, drivePort_of_parse (parse_of_validFrame valid)]
  · rw [driven, drivePort_of_parse (parse_of_not_validFrame notValid)]

/-! ### The frame `ENCODE` builds (R131) -/

theorem validFrame_encodeFrame (k nlv : Byte) (p : Payload) : ValidFrame (encodeFrame k nlv p) :=
  validFrame_closeFrame _

theorem encodedRegion_payload (k nlv : Byte) (p : Payload) (i : Nat) (h : i < 8) :
    (encodedRegion k nlv p)[i + 2]'(by change _ < 10; omega) = p[i] ^^^ k := by
  simp [encodedRegion]

/-- Ten bytes are the sender's for `k`, `nlv` and `p` exactly when the raw key, byte 2 and the lanes are. -/
theorem encodedRegion_eq_iff (k nlv : Byte) (p : Payload) (r : Region) :
    encodedRegion k nlv p = r ↔
      k ^^^ 0x26#8 = r[0] ∧ nlv ^^^ k = r[1] ∧
        ∀ (i : Nat) (h : i < 8), p[i] ^^^ k = r[i + 2]'(by change _ < 10; omega) := by
  constructor
  · rintro rfl
    exact ⟨rfl, rfl, fun i h => (encodedRegion_payload k nlv p i h).symm⟩
  · rintro ⟨key, newline, lanes⟩
    apply Vector.ext
    intro i hi
    match i with
    | 0 => exact key
    | 1 => exact newline
    | i + 2 =>
      have h : i < 8 := Nat.lt_of_add_lt_add_right (n := 2) hi
      rw [encodedRegion_payload k nlv p i h, lanes i h]

/-- A valid frame is the sender's for `k`, `nlv` and `p` exactly when its bytes 1 to 10 are. -/
theorem encodeFrame_eq_iff {f : Frame} (valid : ValidFrame f) (k nlv : Byte) (p : Payload) :
    encodeFrame k nlv p = f ↔
      k ^^^ 0x26#8 = f[1] ∧ nlv ^^^ k = f[2] ∧
        ∀ (i : Nat) (h : i < 8), p[i] ^^^ k = f[i + 3]'(by change _ < 14; omega) := by
  have region : encodeFrame k nlv p = f ↔ encodedRegion k nlv p = checksumRegion f := by
    constructor
    · rintro rfl
      exact (checksumRegion_closeFrame _).symm
    · intro h
      rw [encodeFrame, h, ← eq_closeFrame_of_validFrame valid]
  rw [region, encodedRegion_eq_iff]
  simp only [checksumRegion_get]

/-- The checksum bytes of a valid frame are the sum's two digits to the base 256 (R92, R97). -/
theorem checksum_bytes_of_validFrame {f : Frame} (valid : ValidFrame f) :
    f[11].toNat = byteSum f / 256 ∧ f[12].toNat = byteSum f % 256 := by
  obtain ⟨-, -, sum⟩ := (frameOk_iff f).1 ((frameOk_iff_validFrame f).2 valid)
  have low := byte_toNat_lt f[12]
  rw [checksumField_eq] at sum
  omega

/-- Settles O14: the region as the sender wrote it, and around it what validity forces (R131). -/
theorem encodeBuildsTheSendersFrame : Obligations.EncodeBuildsTheSendersFrame := by
  intro k nlv p s
  have valid := validFrame_encodeFrame k nlv p
  obtain ⟨key, newline, lanes⟩ := (encodeFrame_eq_iff valid k nlv p).1 rfl
  obtain ⟨high, low⟩ := checksum_bytes_of_validFrame valid
  obtain ⟨startMarker, endMarker, -⟩ := valid
  refine ⟨encodeFrame k nlv p, exec_encode k nlv p s, startMarker, key.symm, newline.symm, fun i h => ?_,
    ⟨_, byteSum_eq _, high, low⟩, endMarker⟩
  simp only [Nat.add_comm 3 i, lanes i h]

/-! ### The round trip (R132) -/

theorem xor_eq_iff_eq_xor (a b c : Byte) : a ^^^ c = b ↔ a = b ^^^ c :=
  (xor_key_involutive c).eq_iff

/-- Of a valid frame `PARSE` returns `p` exactly when `p` is its payload bytes decoded with its key. -/
theorem parse_eq_valid_iff_lanes {f : Frame} (valid : ValidFrame f) (p : Payload) :
    parse f = .valid p ↔
      ∀ (i : Nat) (h : i < 8), p[i] = f[i + 3]'(by change _ < 14; omega) ^^^ (f[1] ^^^ 0x26#8) := by
  rw [parse_eq_valid_iff, frameOk_iff_validFrame, and_iff_right valid, Vector.ext_iff]
  exact forall₂_congr fun i h => by rw [xorLanes_get _ _ i h, payloadField_get f i h]; rfl

/-- Each of the ten bytes determines its part of the triple, since XOR with the key undoes itself. -/
theorem encodeFrame_eq_iff_parse {f : Frame} (valid : ValidFrame f) (k nlv : Byte) (p : Payload) :
    encodeFrame k nlv p = f ↔ k = f[1] ^^^ 0x26#8 ∧ nlv = f[2] ^^^ k ∧ parse f = .valid p := by
  rw [encodeFrame_eq_iff valid, parse_eq_valid_iff_lanes valid, xor_eq_iff_eq_xor k, xor_eq_iff_eq_xor nlv]
  refine and_congr_right fun key => and_congr_right fun _ => forall₂_congr fun i h => ?_
  rw [xor_eq_iff_eq_xor, key]

/-- Settles O15: what `ENCODE` builds is a valid frame, and a valid frame answers its own triple (R132). -/
theorem encodeThenParseRoundTrip : Obligations.EncodeThenParseRoundTrip := by
  constructor
  · intro k nlv p
    obtain ⟨-, -, decoded⟩ := (encodeFrame_eq_iff_parse (validFrame_encodeFrame k nlv p) k nlv p).1 rfl
    exact decoded
  · exact fun f accepted => encodeFrame_eq_iff_parse ((parse_ne_invalid_iff f).1 accepted)

end Sys2Proof.Proofs.ParseEncode

/-! What the checks detect and what they do not (40_packet_decoder.md R133, R134). Both turn on the byte sum as
a sum over the frame's offsets, from which the terms of the changed offsets are split off. -/

namespace Sys2Proof.Proofs.ErrorDetection

open Sys2Proof Sys2Proof.Machine
open Sys2Proof.Proofs.PackedPorts Sys2Proof.Proofs.Verdict Sys2Proof.Proofs.ValidFrames

/-! ### The byte sum as a sum over offsets -/

/-- The frame offsets the checksum covers (R93). -/
def summedOffsets : Finset (Fin 14) := Finset.Icc 1 10

theorem mem_summedOffsets (n : Fin 14) : n ∈ summedOffsets ↔ 1 ≤ n.val ∧ n.val ≤ 10 :=
  Finset.mem_Icc

theorem byteSum_eq_sum (f : Frame) : byteSum f = ∑ n ∈ summedOffsets, f[n].toNat := by
  rw [byteSum_eq, show summedOffsets = {1, 2, 3, 4, 5, 6, 7, 8, 9, 10} by decide]
  simp [add_assoc]

/-- Frames that agree outside the offsets of `changed` differ in their sums by the terms at `changed`. -/
theorem byteSum_add_sum_comm {f g : Frame} {changed : Finset (Fin 14)} (covered : changed ⊆ summedOffsets)
    (same : ∀ n ∉ changed, g[n] = f[n]) :
    byteSum g + ∑ n ∈ changed, f[n].toNat = byteSum f + ∑ n ∈ changed, g[n].toNat := by
  have rest : ∑ n ∈ summedOffsets \ changed, g[n].toNat = ∑ n ∈ summedOffsets \ changed, f[n].toNat :=
    Finset.sum_congr rfl fun n hn => by rw [same n (Finset.mem_sdiff.1 hn).2]
  rw [byteSum_eq_sum, byteSum_eq_sum, ← Finset.sum_sdiff covered, ← Finset.sum_sdiff covered, rest,
    add_right_comm]

/-- With the markers and the checksum field of a valid frame, validity is having its sum. -/
theorem validFrame_iff_byteSum_eq {f g : Frame} (valid : ValidFrame f)
    (same : ∀ n ∉ summedOffsets, g[n] = f[n]) : ValidFrame g ↔ byteSum g = byteSum f := by
  obtain ⟨startMarker, endMarker, sum⟩ := (frameOk_iff f).1 ((frameOk_iff_validFrame f).2 valid)
  have startByte : g[0] = f[0] := same 0 (by decide)
  have endByte : g[13] = f[13] := same 13 (by decide)
  have field : checksumField g = checksumField f :=
    congrArg₂ be16 (same 11 (by decide)) (same 12 (by decide))
  rw [← frameOk_iff_validFrame, frameOk_iff, startByte, endByte, field, sum]
  exact ⟨fun ⟨_, _, sum'⟩ => sum', fun sum' => ⟨startMarker, endMarker, sum'⟩⟩

/-! ### One byte changed (R133) -/

theorem frame_eq_of_eq_except {f g : Frame} {i : Fin 14} (same : ∀ n : Fin 14, n ≠ i → g[n] = f[n])
    (at_i : g[i] = f[i]) : g = f := by
  apply Vector.ext
  intro n hn
  by_cases h : (⟨n, hn⟩ : Fin 14) = i
  · subst h
    exact at_i
  · exact same ⟨n, hn⟩ h

/-- Two valid frames that differ in one byte at most are the same frame: among bytes 1 to 10 a changed byte
changes the sum alone, and the other four are forced by those ten. -/
theorem eq_of_validFrame_of_eq_except {f g : Frame} (valid : ValidFrame f) (valid' : ValidFrame g) {i : Fin 14}
    (same : ∀ n : Fin 14, n ≠ i → g[n] = f[n]) : g = f := by
  by_cases hi : i ∈ summedOffsets
  · have sum := (validFrame_iff_byteSum_eq valid fun n hn => same n fun e => hn (e ▸ hi)).1 valid'
    have term := byteSum_add_sum_comm (Finset.singleton_subset_iff.2 hi)
      fun n hn => same n (Finset.mem_singleton.not.1 hn)
    rw [sum, Finset.sum_singleton, Finset.sum_singleton] at term
    exact frame_eq_of_eq_except same (BitVec.eq_of_toNat_eq (Nat.add_left_cancel term).symm)
  · have region : checksumRegion g = checksumRegion f := by
      rw [checksumRegion_eq_iff]
      intro n hn
      rw [checksumRegion_get f n hn]
      refine same ⟨n + 1, by omega⟩ ?_
      rintro rfl
      exact hi ((mem_summedOffsets _).2 ⟨Nat.le_add_left 1 n, hn⟩)
    rw [eq_closeFrame_of_validFrame valid, eq_closeFrame_of_validFrame valid', region]

/-! ### One bit inverted (R133) -/

/-- The frame that a port carries with bit `j` of `f` inverted. -/
def invertBit (f : Frame) (j : Nat) : Frame := unpackFrame (packFrame f ^^^ BitVec.twoPow _ j)

/-- Bit `c` of byte `n` is inverted exactly when it is bit `j` of the port. -/
theorem getLsbD_invertBit (f : Frame) (n : Fin 14) {j c : Nat} (hj : j < Config.FRAME_BITS) (hc : c < 8) :
    (invertBit f j)[n].getLsbD c = (f[n].getLsbD c ^^ decide (j = laneLow 14 n + c)) := by
  have lane : (invertBit f j)[n] = (packFrame f ^^^ BitVec.twoPow _ j).extractLsb' (laneLow 14 n) 8 :=
    getElem_unpackBytes _ n.isLt
  have carried : (packFrame f).getLsbD (laneLow 14 n + c) = f[n].getLsbD c := getLsbD_packBytes f n.isLt hc
  rw [lane, BitVec.getLsbD_extractLsb', BitVec.getLsbD_xor, carried, BitVec.getLsbD_twoPow,
    decide_eq_true hc, decide_eq_true hj, Bool.true_and, Bool.true_and]

/-- An inverted bit changes one byte, that of its lane, and no other. -/
theorem exists_invertBit_ne (f : Frame) {j : Nat} (hj : j < Config.FRAME_BITS) :
    ∃ i : Fin 14, (invertBit f j)[i] ≠ f[i] ∧ ∀ n : Fin 14, n ≠ i → (invertBit f j)[n] = f[n] := by
  obtain ⟨i, b, hi, hb, hib⟩ := exists_laneLow_add (n := 14) hj
  refine ⟨⟨i, hi⟩, fun unchanged => ?_, fun n hne => BitVec.eq_of_getLsbD_eq fun c hc => ?_⟩
  · have bit := getLsbD_invertBit f ⟨i, hi⟩ hj hb
    rw [unchanged, decide_eq_true hib] at bit
    exact Bool.not_ne_self _ (bit.trans (Bool.xor_true _)).symm
  · have elsewhere : j ≠ laneLow 14 n + c := by
      have := laneLow_disjoint n.isLt hi (fun e => hne (Fin.ext e.symm)) hc
      omega
    rw [getLsbD_invertBit f n hj hc, decide_eq_false elsewhere, Bool.xor_false]

/-- Settles O16: an inverted bit changes one byte, and no two valid frames differ in one byte alone (R133). -/
theorem anySingleBitErrorIsDetected : Obligations.AnySingleBitErrorIsDetected := by
  refine ⟨fun r => (parse_ne_invalid_iff _).2 (validFrame_closeFrame r), fun f accepted j hj => ?_⟩
  obtain ⟨i, changed, same⟩ := exists_invertBit_ne f hj
  have valid := (parse_ne_invalid_iff f).1 accepted
  exact parse_of_not_validFrame fun valid' =>
    changed (congrArg (·[i]) (eq_of_validFrame_of_eq_except valid valid' same))

/-! ### Two bytes changed (R134) -/

/-- Changes of summed bytes that keep their total keep a valid frame valid. -/
theorem validFrame_of_sum_eq {f g : Frame} (valid : ValidFrame f) {changed : Finset (Fin 14)}
    (covered : changed ⊆ summedOffsets) (same : ∀ n ∉ changed, g[n] = f[n])
    (total : ∑ n ∈ changed, g[n].toNat = ∑ n ∈ changed, f[n].toNat) : ValidFrame g := by
  rw [validFrame_iff_byteSum_eq valid fun n hn => same n fun h => hn (covered h)]
  have terms := byteSum_add_sum_comm covered same
  rw [total] at terms
  exact Nat.add_right_cancel terms

/-- Settles O17: either change of the two bytes keeps their total (R134). -/
theorem exchangedOrCompensatedBytesAreNotDetected : Obligations.ExchangedOrCompensatedBytesAreNotDetected := by
  intro f g i j hi hi' hj hj' hne accepted same change
  rw [parse_ne_invalid_iff] at accepted ⊢
  have covered : {i, j} ⊆ summedOffsets := by
    simp only [Finset.insert_subset_iff, Finset.singleton_subset_iff, mem_summedOffsets]
    exact ⟨⟨hi, hi'⟩, hj, hj'⟩
  have unchanged (n : Fin 14) (hn : n ∉ ({i, j} : Finset (Fin 14))) : g[n] = f[n] := by
    rw [Finset.mem_insert, Finset.mem_singleton, not_or] at hn
    exact same n hn.1 hn.2
  refine validFrame_of_sum_eq accepted covered unchanged ?_
  rw [Finset.sum_pair hne, Finset.sum_pair hne]
  rcases change with ⟨gi, gj⟩ | ⟨d, raised, lowered⟩
  · rw [gi, gj, Nat.add_comm]
  · omega

end Sys2Proof.Proofs.ErrorDetection

/-! The decoder's side as functions of the operands (10_state.md R30, 40_packet_decoder.md R130). -/

namespace Sys2Proof.Proofs.DecoderPurity

open Sys2Proof Sys2Proof.Machine
open Sys2Proof.Proofs.Candidates Sys2Proof.Proofs.FramerState

/-- `i` puts the 14 bytes of `f` on the decoder's port (log 12). -/
def Drives (i : Instr) (f : Frame) : Prop :=
  ∃ rest : List Byte, i = .valid f ∨ i = .invalid f ∨ i = .parse (f.toList ++ rest)

/-- An operation of the decoder's side does the same in every state: it answers one value, or drives one
frame, or refuses. -/
theorem exec_decoder_cases {i : Instr} (hi : decoderSide i = true) :
    (∃ r, ∀ s, exec i s = .next (s.answer r)) ∨
      (∃ f, Drives i f ∧ ∀ s, exec i s = .next (s.drivePort f)) ∨
      ∀ s, exec i s = .refused .shortCandidate := by
  cases i with
  | read | fill | resync0 | tryDecode | resync1 | returnPayload | cancel => cases hi
  | chks | chke | csum | ccmp | keyd | xdec | encode => exact .inl ⟨_, fun _ => rfl⟩
  | valid f => exact .inr (.inl ⟨f, ⟨[], .inl rfl⟩, exec_valid f⟩)
  | invalid f => exact .inr (.inl ⟨f, ⟨[], .inr (.inl rfl)⟩, exec_invalid f⟩)
  | parse c =>
    rcases Nat.lt_or_ge c.length 14 with short | long
    · exact .inr (.inr (exec_parse_of_length_lt short))
    · obtain ⟨f, hf⟩ := exists_takeFrame_of_le_length long
      have drives : Drives (.parse c) f := ⟨c.drop 14, .inr (.inr (congrArg _ (takeFrame_split hf)))⟩
      exact .inr (.inl ⟨f, drives, exec_parse_of_takeFrame hf⟩)

/-- An operation of the framer leaves what is driven on the decoder's port (R30). -/
theorem exec_framer_frame {i : Instr} {s t : State} (hi : decoderSide i = false) (h : exec i s = .next t) :
    t.frame = s.frame := by
  have same : exec i s = .next (driven t s.frame) := exec_framer_driven s.frame hi h
  have kept : t = driven t s.frame := Host.Outcome.next.inj (h.symm.trans same)
  calc t.frame = (driven t s.frame).frame := congrArg State.frame kept
    _ = s.frame := rfl

/-- Settles O18: the three things an operation of the decoder's side can do are the same in every state, and
none of them writes the framer (R130, log 12). -/
theorem decoderSideIsPure : Obligations.DecoderSideIsPure := by
  refine ⟨fun i s s' t hi h => ?_, fun i s t h => ?_, fun f rest s => ?_⟩
  · rcases exec_decoder_cases hi with ⟨r, answers⟩ | ⟨f, -, drives⟩ | refuses
    · cases h.symm.trans (answers s)
      exact ⟨⟨_, answers s', rfl⟩, rfl, rfl, rfl, rfl, rfl⟩
    · cases h.symm.trans (drives s)
      exact ⟨⟨_, drives s', rfl⟩, rfl, rfl, rfl, rfl, rfl⟩
    · cases h.symm.trans (refuses s)
  · cases hi : decoderSide i with
    | false => exact .inl (exec_framer_frame hi h)
    | true =>
      rcases exec_decoder_cases hi with ⟨r, answers⟩ | ⟨f, ⟨rest, form⟩, -⟩ | refuses
      · cases h.symm.trans (answers s)
        exact .inl rfl
      · exact .inr ⟨f, rest, form⟩
      · cases h.symm.trans (refuses s)
  · exact ⟨_, _, _, exec_valid f s, exec_invalid f s, exec_parse_of_takeFrame (takeFrame_append f rest) s,
      rfl, rfl, rfl⟩

end Sys2Proof.Proofs.DecoderPurity

/-! The operations of the Stream Framer (41_stream_framer.md R160 to R165, R170): one equation for each case of
each operation, the trim to a marker, and what an operation can do to the framer at all. -/

namespace Sys2Proof.Proofs.FramerOps

open Sys2Proof Sys2Proof.Machine
open Sys2Proof.Proofs.Verdict Sys2Proof.Proofs.ValidFrames

/-! ### Frames and buffers in normal form (R174) -/

theorem toList_eq_cons (f : Frame) : f.toList = f[0] :: f.toList.drop 1 :=
  List.drop_eq_getElem_cons (l := f.toList) (i := 0) (by simp)

theorem parse_eq_valid_iff_validFrame (f : Frame) (p : Payload) :
    parse f = .valid p ↔ ValidFrame f ∧ p = decodedLanes f := by
  rw [parse_eq_valid_iff, frameOk_iff_validFrame, xorLanes_decodeKey]

theorem takeFrame_of_eq_append {b more : List Byte} {f : Frame} (h : b = f.toList ++ more) :
    takeFrame b = some f :=
  h ▸ takeFrame_append f more

theorem length_of_takeFrame {b : List Byte} {f : Frame} (h : takeFrame b = some f) : 14 ≤ b.length := by
  rw [takeFrame_split h, List.length_append, Vector.length_toList]
  exact Nat.le_add_right 14 _

theorem markerFirst_iff (b : List Byte) : markerFirst b = true ↔ b = [] ∨ ∃ more, b = 0x02#8 :: more := by
  cases b with
  | nil => simp [markerFirst]
  | cons x more => simp [markerFirst]

theorem setSt_self {s : State} {x : St} (h : s.st = x) : s.setSt x = s := by
  subst h
  rfl

/-! ### The trim to a marker (R73, R162, R164) -/

/-- A trim writes `BUF` alone: the `k` oldest bytes go, and of the rest what precedes the first marker. -/
theorem trimToMarker_spec (s : State) (k : Nat) :
    ∃ lost kept, s.buf.drop k = lost ++ kept ∧ 0x02#8 ∉ lost ∧ markerFirst kept = true ∧
      s.trimToMarker k = { s with buf := kept } := by
  obtain ⟨lost, kept, split_eq, noMarker, headKept, rfl⟩ := trimToMarker_buf_spec s k
  refine ⟨lost, _, split_eq, noMarker, ?_, ?_⟩
  · rwa [markerFirst_iff, ← List.head?_eq_some_iff]
  · unfold State.trimToMarker
    split <;> rfl

theorem markerFirst_trimToMarker (s : State) (k : Nat) : markerFirst (s.trimToMarker k).buf = true := by
  obtain ⟨_, _, -, -, normal, trimmed⟩ := trimToMarker_spec s k
  rwa [trimmed]

theorem length_trimToMarker_le (s : State) (k : Nat) :
    (s.trimToMarker k).buf.length ≤ s.buf.length - k := by
  obtain ⟨lost, kept, split_eq, -, -, trimmed⟩ := trimToMarker_spec s k
  rw [trimmed, ← List.length_drop, split_eq, List.length_append]
  exact Nat.le_add_left _ _

/-- A buffer in normal form loses nothing. -/
theorem trimToMarker_of_markerFirst {s : State} (h : markerFirst s.buf = true) : s.trimToMarker 0 = s := by
  obtain ⟨lost, kept, split_eq, noMarker, -, trimmed⟩ := trimToMarker_spec s 0
  rw [List.drop_zero] at split_eq
  obtain rfl : lost = [] := by
    cases lost with
    | nil => rfl
    | cons x lost => simp [split_eq, markerFirst, (List.ne_of_not_mem_cons noMarker).symm] at h
  rw [trimmed, show kept = s.buf from split_eq.symm]

/-- A buffer without a marker loses everything. -/
theorem trimToMarker_of_not_mem {s : State} (h : 0x02#8 ∉ s.buf) :
    s.trimToMarker 0 = { s with buf := [] } := by
  obtain ⟨lost, kept, split_eq, -, normal, trimmed⟩ := trimToMarker_spec s 0
  rw [List.drop_zero] at split_eq
  rcases (markerFirst_iff kept).1 normal with rfl | ⟨more, rfl⟩
  · exact trimmed
  · exact absurd (split_eq ▸ List.mem_append_right lost (List.mem_cons_self ..)) h

/-! ### READ (R160) and CANCEL (R170) -/

theorem exec_read_of_idle {s : State} (h : s.st = .idle) : exec .read s = .next (s.setSt .filling) := by
  simp only [exec, execRead, h]

theorem exec_read_of_ne_idle {s : State} (h : s.st ≠ .idle) : exec .read s = .next s := by
  simp only [exec, execRead]

theorem exec_cancel_of_idle {s : State} (h : s.st = .idle) : exec .cancel s = .next s := by
  simp only [exec, execCancel, h]

theorem exec_cancel_of_ne_idle {s : State} (h : s.st ≠ .idle) : exec .cancel s = .next (s.setSt .idle) := by
  simp only [exec, execCancel]

/-- Settles O28: both cases of `READ` (R160). -/
theorem readStartsFilling : Obligations.ReadStartsFilling :=
  fun _ => ⟨exec_read_of_idle, exec_read_of_ne_idle⟩

/-- Settles O35: `CANCEL` writes `ST` alone (R170). -/
theorem cancelKeepsTheBuffer : Obligations.CancelKeepsTheBuffer :=
  fun _ => exec_cancel_of_ne_idle

/-! ### FILL (R161) -/

theorem exec_fill_of_filling {s : State} (h : s.st = .filling) (m : Nat) :
    exec (.fill m) s = .next ((s.srcRequest s.requestSize m).setSt .resyncing) := by
  simp only [exec, execFill, h]

theorem exec_fill_of_ne_filling {s : State} (h : s.st ≠ .filling) (m : Nat) : exec (.fill m) s = .next s := by
  simp only [exec, execFill]

/-- The answer to `FILL`'s request, cut to the contract (log 5): at most `14 - LEN` bytes. -/
theorem fill_srcRequest_eq (s : State) (m : Nat) :
    s.srcRequest s.requestSize m = { s with
      buf := s.buf ++ s.source.take (min m (14 - s.buf.length))
      source := s.source.drop (min m (14 - s.buf.length)) } := rfl

/-- With a full buffer the request is for 0 bytes (R68, R179). -/
theorem fill_srcRequest_of_full {s : State} (h : 14 ≤ s.buf.length) (m : Nat) :
    s.srcRequest s.requestSize m = s := by
  rw [fill_srcRequest_eq, Nat.sub_eq_zero_of_le h, Nat.min_zero, List.take_zero, List.append_nil,
    List.drop_zero]

theorem fill_srcRequest_zero (s : State) : s.srcRequest s.requestSize 0 = s := by
  rw [fill_srcRequest_eq, Nat.zero_min, List.take_zero, List.append_nil, List.drop_zero]

/-- A one-byte answer to a request for at least one byte moves the front of the source. -/
theorem fill_srcRequest_one {s : State} {b : Byte} {more : List Byte} (short : s.buf.length < 14)
    (offered : s.source = b :: more) :
    s.srcRequest s.requestSize 1 = { s with buf := s.buf ++ [b], source := more } := by
  rw [fill_srcRequest_eq, Nat.min_eq_left (by omega), offered]
  rfl

theorem length_buf_fill_le {s : State} (bounded : s.buf.length ≤ 14) (m : Nat) :
    (s.srcRequest s.requestSize m).buf.length ≤ 14 := by
  rw [fill_srcRequest_eq, List.length_append, List.length_take]
  omega

/-- Settles O29: within the contract nothing is cut (R66, R161). -/
theorem fillAppendsTheAnswer : Obligations.FillAppendsTheAnswer := by
  intro s m filling requested _
  rw [exec_fill_of_filling filling, fill_srcRequest_eq, Nat.min_eq_left requested]
  rfl

/-- Settles O30: the answer cut to the contract, the bound, and the full buffer (R176, R179, log 5). -/
theorem fillNeverExceedsTheContract : Obligations.FillNeverExceedsTheContract := by
  refine fun s m filling => ⟨_, exec_fill_of_filling filling m, rfl, ?_, fun full => ?_⟩
  · exact fun bounded => length_buf_fill_le bounded m
  · rw [fill_srcRequest_of_full full]
    exact ⟨rfl, rfl⟩

/-! ### RESYNC0 (R162) -/

theorem exec_resync0_of_resyncing {s : State} (h : s.st = .resyncing) :
    exec .resync0 s = .next ((s.trimToMarker 0).setSt .decoding) := by
  simp only [exec, execResync0, h]

theorem exec_resync0_of_ne_resyncing {s : State} (h : s.st ≠ .resyncing) : exec .resync0 s = .next s := by
  simp only [exec, execResync0]

/-- Settles O31: the trim from offset 0, then `DECODING` (R162). -/
theorem resyncDiscardsUpToTheFirstMarker : Obligations.ResyncDiscardsUpToTheFirstMarker := by
  intro s resyncing
  obtain ⟨lost, kept, split_eq, noMarker, normal, trimmed⟩ := trimToMarker_spec s 0
  refine ⟨lost, kept, split_eq, noMarker, (markerFirst_iff kept).1 normal, ?_⟩
  rw [exec_resync0_of_resyncing resyncing, trimmed]
  rfl

/-! ### TRY and its two outcomes (R163 to R165) -/

theorem exec_tryDecode_of_ne_decoding {s : State} (h : s.st ≠ .decoding) : exec .tryDecode s = .next s := by
  simp only [exec, execTryDecode]

theorem exec_tryDecode_of_short {s : State} (h : s.st = .decoding) (short : s.buf.length < 14) :
    exec .tryDecode s = .next (s.setSt .filling) := by
  simp only [exec, execTryDecode, h, candidate_eq, (takeFrame_eq_none_iff _).2 short]

section candidate

variable {s : State} {f : Frame} {p : Payload} (decoding : s.st = .decoding) (front : takeFrame s.buf = some f)
include decoding front

theorem exec_tryDecode_of_valid (valid : parse f = .valid p) : exec .tryDecode s = .next (s.deliver p) := by
  simp only [exec, execTryDecode, decoding, candidate_eq, front, valid]

theorem exec_tryDecode_of_invalid (invalid : parse f = .invalid) :
    exec .tryDecode s = .next s.resyncAfterFailure := by
  simp only [exec, execTryDecode, decoding, candidate_eq, front, invalid]

theorem exec_returnPayload_of_valid (valid : parse f = .valid p) :
    exec .returnPayload s = .next (s.deliver p) := by
  simp only [exec, execReturnPayload, decoding, candidate_eq, front, Option.map_some, valid]

theorem exec_resync1_of_invalid (invalid : parse f = .invalid) :
    exec .resync1 s = .next s.resyncAfterFailure := by
  simp only [exec, execResync1, decoding, candidate_eq, front, Option.map_some, invalid]

end candidate

/-- `RETURN` happens only in `DECODING` with a candidate of verdict `Valid` (R165, log 3). -/
theorem exec_returnPayload_of_disabled {s : State}
    (disabled : s.st = .decoding → ∀ f, takeFrame s.buf = some f → parse f = .invalid) :
    exec .returnPayload s = .next s := by
  simp only [exec, execReturnPayload, candidate_eq]
  split
  · next p decoding verdict =>
    obtain ⟨f, front, valid⟩ := Option.map_eq_some_iff.1 verdict
    cases valid.symm.trans (disabled decoding f front)
  · rfl

/-- `RESYNC1` happens only in `DECODING` with a candidate of verdict `Invalid` (R164, log 3). -/
theorem exec_resync1_of_disabled {s : State}
    (disabled : s.st = .decoding → ∀ f, takeFrame s.buf = some f → parse f ≠ .invalid) :
    exec .resync1 s = .next s := by
  simp only [exec, execResync1, candidate_eq]
  split
  · next decoding verdict =>
    obtain ⟨f, front, invalid⟩ := Option.map_eq_some_iff.1 verdict
    exact absurd invalid (disabled decoding f front)
  · rfl

/-- Settles O32: the short candidate, and the two verdicts (R163). -/
theorem tryFollowsTheVerdict : Obligations.TryFollowsTheVerdict := by
  refine fun s decoding => ⟨exec_tryDecode_of_short decoding, fun f more held => ⟨fun p valid => ?_, ?_⟩⟩
  all_goals have front := takeFrame_of_eq_append held
  · rw [exec_tryDecode_of_valid decoding front valid, exec_returnPayload_of_valid decoding front valid]
  · intro invalid
    rw [exec_tryDecode_of_invalid decoding front invalid, exec_resync1_of_invalid decoding front invalid]

/-- Settles O33: the trim from offset 1, in `DECODING` before and after (R164). -/
theorem failedAttemptDiscardsUpToTheNextMarker : Obligations.FailedAttemptDiscardsUpToTheNextMarker := by
  intro s f more decoding held invalid
  have front := takeFrame_of_eq_append held
  obtain ⟨lost, kept, split_eq, noMarker, normal, trimmed⟩ := trimToMarker_spec s 1
  have failed : s.resyncAfterFailure = { s with buf := kept } := by
    rw [State.resyncAfterFailure, trimmed]
    exact setSt_self decoding
  refine ⟨f[0], lost, kept, ?_, noMarker, (markerFirst_iff kept).1 normal, ?_, ?_⟩
  · rw [List.cons_append, ← split_eq, held, toList_eq_cons f]
    rfl
  · rw [exec_resync1_of_invalid decoding front invalid, failed]
  · rw [exec_tryDecode_of_invalid decoding front invalid, failed]

/-- The delivery of a frame at the front of `BUF` leaves what follows the frame. -/
theorem deliver_of_eq_append {s : State} {f : Frame} {more : List Byte} (held : s.buf = f.toList ++ more)
    (p : Payload) : s.deliver p = { s with buf := more, st := .idle, delivery := some p } := by
  have rest : s.buf.drop 14 = more := by
    rw [held]
    exact List.drop_left' (Vector.length_toList ..)
  rw [← rest]
  rfl

/-- Settles O34: `RETURN` and `TRY` both deliver the valid frame at the front of `BUF` (R165). -/
theorem returnDeliversThePayload : Obligations.ReturnDeliversThePayload := by
  intro s f more decoding held valid
  have front := takeFrame_of_eq_append held
  rw [exec_returnPayload_of_valid decoding front (parse_of_validFrame valid),
    exec_tryDecode_of_valid decoding front (parse_of_validFrame valid), deliver_of_eq_append held]
  exact ⟨rfl, rfl⟩

/-- Settles O36: each operation with its enabling condition false (R172, log 3). -/
theorem disabledOperationsHold : Obligations.DisabledOperationsHold := by
  refine fun s => ⟨fun m h => exec_fill_of_ne_filling h m, exec_resync0_of_ne_resyncing, fun h => ?_,
    exec_cancel_of_idle, fun short => ?_, fun f more held => ?_⟩
  · exact ⟨exec_tryDecode_of_ne_decoding h, exec_resync1_of_disabled fun d => absurd d h,
      exec_returnPayload_of_disabled fun d => absurd d h⟩
  · have noFrame : ∀ f, takeFrame s.buf ≠ some f := fun f front =>
      Nat.not_lt.2 (length_of_takeFrame front) short
    exact ⟨exec_resync1_of_disabled fun _ f front => absurd front (noFrame f),
      exec_returnPayload_of_disabled fun _ f front => absurd front (noFrame f)⟩
  · have only : ∀ g, takeFrame s.buf = some g → g = f := fun g front =>
      Option.some.inj (front.symm.trans (takeFrame_of_eq_append held))
    exact ⟨fun invalid => exec_returnPayload_of_disabled fun _ g front => only g front ▸ invalid,
      fun valid => exec_resync1_of_disabled fun _ g front => only g front ▸ valid⟩

/-- Settles O46: a failed attempt trims at least the marker just tried, so the next finds too few bytes
(R180). -/
theorem atMostOneAttemptPerFill : Obligations.AtMostOneAttemptPerFill := by
  intro s t bounded decoding attempted stays
  rcases exec_try_cases decoding with ⟨-, e⟩ | ⟨f, p, -, -, e⟩ | ⟨f, -, -, e⟩
  · cases attempted.symm.trans e
    cases stays
  · cases attempted.symm.trans e
    cases stays
  · cases attempted.symm.trans e
    have trimmed : s.resyncAfterFailure.buf.length ≤ 13 :=
      (length_trimToMarker_le s 1).trans (Nat.sub_le_sub_right bounded 1)
    exact ⟨trimmed, exec_tryDecode_of_short rfl (Nat.lt_succ_of_le trimmed)⟩

/-- Settles O44: in `DECODING` the candidate's first byte is the buffer's, which is a marker (R174, R175). -/
theorem framerCandidatesBeginWithTheMarker : Obligations.FramerCandidatesBeginWithTheMarker := by
  intro s f inv decoding candidate
  have held := takeFrame_split ((candidate_eq s).symm.trans candidate)
  have marker : f[0] = 0x02#8 := by
    have normal := inv.decodingNormal decoding
    rw [held, toList_eq_cons f] at normal
    exact beq_iff_eq.1 normal
  refine ⟨marker, fun invalid => ?_⟩
  have notValid : ¬ ValidFrame f := fun valid => (parse_ne_invalid_iff f).2 valid invalid
  by_cases endMarker : f[13] = 0x03#8
  · exact .inr fun sum => notValid ⟨marker, endMarker, sum⟩
  · exact .inl endMarker

/-! ### What an operation can do to the framer -/

/-- What the operation `i` makes of the framer's state `s` when it has a next state (R172): it holds, or it
is one of the seven transitions of R172's table. The operations of the decoder's side hold. -/
inductive Effect (i : Instr) (s : State) : State → Prop
  | holds {t : State} (buf : t.buf = s.buf) (st : t.st = s.st) (source : t.source = s.source)
      (delivery : t.delivery = s.delivery) (events : t.events = s.events) : Effect i s t
  | reads (idle : s.st = .idle) : Effect i s (s.setSt .filling)
  | fills (m : Nat) (filling : s.st = .filling) :
      Effect i s ((s.srcRequest s.requestSize m).setSt .resyncing)
  | resyncs (resyncing : s.st = .resyncing) : Effect i s ((s.trimToMarker 0).setSt .decoding)
  | waits (decoding : s.st = .decoding) (short : s.buf.length < 14) : Effect i s (s.setSt .filling)
  | delivers (decoding : s.st = .decoding) (f : Frame) (front : takeFrame s.buf = some f)
      (valid : ValidFrame f) : Effect i s (s.deliver (decodedLanes f))
  | fails (decoding : s.st = .decoding) (f : Frame) (front : takeFrame s.buf = some f)
      (invalid : ¬ ValidFrame f) : Effect i s s.resyncAfterFailure
  | cancels (op : i = .cancel) : Effect i s (s.setSt .idle)

theorem effect_of_exec {i : Instr} {s t : State} (h : exec i s = .next t) : Effect i s t := by
  rcases exec_next_cases h with rfl | ⟨-, ⟨r, rfl⟩ | ⟨f, rfl⟩⟩ | ⟨-, idle, rfl⟩ | ⟨m, -, filling, rfl⟩ |
    ⟨-, resyncing, rfl⟩ | ⟨-, decoding, short, rfl⟩ | ⟨-, decoding, f, p, front, verdict, rfl⟩ |
    ⟨-, decoding, f, front, invalid, rfl⟩ | ⟨op, -, rfl⟩
  · exact .holds rfl rfl rfl rfl rfl
  · exact .holds rfl rfl rfl rfl rfl
  · exact .holds rfl rfl rfl rfl rfl
  · exact .reads idle
  · exact .fills m filling
  · exact .resyncs resyncing
  · exact .waits decoding short
  · obtain ⟨valid, rfl⟩ := (parse_eq_valid_iff_validFrame f p).1 verdict
    exact .delivers decoding f front valid
  · exact .fails decoding f front fun valid => (parse_ne_invalid_iff f).2 valid invalid
  · exact .cancels op

/-- No operation touches the schedule. -/
theorem exec_events {i : Instr} {s t : State} (h : exec i s = .next t) : t.events = s.events := by
  cases effect_of_exec h with
  | holds _ _ _ _ events => exact events
  | resyncs => exact State.trimToMarker_events s 0
  | fails => exact State.resyncAfterFailure_events s
  | reads | fills | waits | delivers | cancels => rfl

end Sys2Proof.Proofs.FramerOps

/-! One step of the framer (41_stream_framer.md R171, R172) and one clock edge (R188 to R190): which operation
is taken, and what the step then does. -/

namespace Sys2Proof.Proofs.FramerSteps

open Sys2Proof Sys2Proof.Machine
open Sys2Proof.Proofs.Verdict Sys2Proof.Proofs.Encoding Sys2Proof.Proofs.FramerState
open Sys2Proof.Proofs.FramerOps

/-! ### The operation put before the step (R96, R107) -/

theorem step_op (s : State) (es : List Event) (i : Instr) :
    step { s with events := .op i :: es } = exec i { s with events := es, delivery := none, result := none } :=
  rfl

theorem step_present (s : State) (es : List Event) (w : FrameBits) :
    step { s with events := .present w :: es } =
      exec (classify (unpackFrame w)) { s with events := es, delivery := none, result := none } :=
  rfl

/-- Settles O25: the frame on the port is decoded whole, and a named operation is taken as it is (log 1). -/
theorem stepRunsTheOperationPutBeforeIt : Obligations.StepRunsTheOperationPutBeforeIt := by
  refine ⟨fun s w es i rest decoded _ => ?_, step_op⟩
  rw [decode_of_takeFrame (takeFrame_toList _)] at decoded
  cases decoded
  exact ⟨step_present s es w, List.drop_of_length_le (by simp)⟩

/-! ### The step `ST` calls for (R172) -/

theorem ownOp_of_idle {s : State} (h : s.st = .idle) : s.ownOp = none := by
  simp only [State.ownOp, h]

theorem ownOp_of_short {s : State} (h : s.st = .filling) (short : s.buf.length < 14) : s.ownOp = none := by
  simp only [State.ownOp, h, State.len_eq]
  exact if_neg (Nat.not_le.2 short)

theorem ownOp_of_full {s : State} (h : s.st = .filling) (full : 14 ≤ s.buf.length) :
    s.ownOp = some (.fill 0) := by
  simp only [State.ownOp, h, State.len_eq]
  exact if_pos full

theorem ownOp_of_resyncing {s : State} (h : s.st = .resyncing) : s.ownOp = some .resync0 := by
  simp only [State.ownOp, h]

theorem ownOp_of_decoding {s : State} (h : s.st = .decoding) : s.ownOp = some .tryDecode := by
  simp only [State.ownOp, h]

theorem step_of_quiet {s : State} {i : Instr} (quiet : s.nextEvent = .quiet) (own : s.ownOp = some i) :
    step s = exec i s.beginStep :=
  step_of_selected (by rw [State.selected, quiet, own])

theorem step_of_quiet_none {s : State} (quiet : s.nextEvent = .quiet) (own : s.ownOp = none) :
    step s = .next s.beginStep := by
  rw [step_of_not_selected (by rw [State.selected, quiet, own]), quiet]
  rfl

/-- Settles O26: a schedule that begins with `quiet` and one that is used up give the same step (R172,
log 14). -/
theorem quietStepTakesWhatTheControlStateCallsFor : Obligations.QuietStepTakesWhatTheControlStateCallsFor := by
  intro s t h
  obtain ⟨quiet, rfl⟩ : s.nextEvent = .quiet ∧ t = s.beginStep := by
    rcases h with ⟨es, events, rfl⟩ | ⟨events, rfl⟩ <;> simp [State.nextEvent, State.beginStep, events]
  exact ⟨fun h => step_of_quiet_none quiet (ownOp_of_idle h),
    fun h short => step_of_quiet_none quiet (ownOp_of_short h short),
    fun h full => step_of_quiet quiet (ownOp_of_full h full),
    fun h => step_of_quiet quiet (ownOp_of_resyncing h), fun h => step_of_quiet quiet (ownOp_of_decoding h)⟩

/-! ### Short runs after a request (R177, R190) -/

theorem step_resyncing {s : State} (quiet : s.nextEvent = .quiet) (resyncing : s.st = .resyncing) :
    step s = .next ((s.beginStep.trimToMarker 0).setSt .decoding) :=
  (step_of_quiet quiet (ownOp_of_resyncing resyncing)).trans
    (exec_resync0_of_resyncing (s := s.beginStep) resyncing)

theorem step_short {s : State} (quiet : s.nextEvent = .quiet) (decoding : s.st = .decoding)
    (short : s.buf.length < 14) : step s = .next (s.beginStep.setSt .filling) :=
  (step_of_quiet quiet (ownOp_of_decoding decoding)).trans
    (exec_tryDecode_of_short (s := s.beginStep) decoding short)

/-- A 0-byte answer: the trim finds the buffer in normal form, and the attempt finds it short. -/
theorem run_emptyAnswer {s : State} (es : List Event) (filling : s.st = .filling) (short : s.buf.length < 14)
    (normal : markerFirst s.buf = true) :
    core.run 3 { s with events := .op (.fill 0) :: .quiet :: .quiet :: es } =
      .next { s with events := es, delivery := none, result := none } := by
  set u : State := { s with events := .quiet :: .quiet :: es, delivery := none, result := none }
  have filled : step { s with events := .op (.fill 0) :: .quiet :: .quiet :: es } =
      .next (u.setSt .resyncing) := by
    rw [step_op, exec_fill_of_filling (s := u) filling, fill_srcRequest_zero]
  have trimmed : step (u.setSt .resyncing) = .next (u.beginStep.setSt .decoding) := by
    rw [step_resyncing rfl rfl, trimToMarker_of_markerFirst (by exact normal)]
    rfl
  have tried : step (u.beginStep.setSt .decoding) =
      .next { s with events := es, delivery := none, result := none } := by
    rw [step_short rfl rfl (by exact short)]
    exact congrArg _ (setSt_self (s := u.beginStep.beginStep) filling)
  rw [core_run_succ 2 filled, core_run_succ 1 trimmed, core_run_succ 0 tried, core_run_zero]

/-- Settles O45: the round of a 0-byte answer changes nothing (R177). -/
theorem emptyAnswerChangesNothing : Obligations.EmptyAnswerChangesNothing :=
  fun _ es => run_emptyAnswer es

/-- `RESYNC0` after one byte joined a buffer in normal form: only a buffer that was empty can lose it
(R190). -/
theorem trimToMarker_of_append_byte {s : State} {c : List Byte} {b : Byte} (held : s.buf = c ++ [b])
    (normal : markerFirst c = true) :
    s.trimToMarker 0 = { s with buf := if c = [] ∧ b ≠ 0x02#8 then [] else c ++ [b] } := by
  by_cases dropped : c = [] ∧ b ≠ 0x02#8
  · obtain ⟨rfl, notMarker⟩ := dropped
    rw [if_pos ⟨rfl, notMarker⟩]
    exact trimToMarker_of_not_mem (by simp [held, notMarker.symm])
  · have kept : markerFirst s.buf = true := by
      rw [held]
      cases c with
      | nil => simpa [markerFirst] using dropped
      | cons x c => exact normal
    rw [if_neg dropped, trimToMarker_of_markerFirst kept, ← held]

/-- Settles O47: one byte joins, and the trim drops it or trims nothing (R190). -/
theorem oneByteFillAndResyncShortcut : Obligations.OneByteFillAndResyncShortcut := by
  intro s b more es filling short normal offered
  set u : State := { s with events := .quiet :: es, delivery := none, result := none }
  set v : State := { u with buf := s.buf ++ [b], source := more, st := .resyncing }
  have filled : step { s with events := .op (.fill 1) :: .quiet :: es } = .next v := by
    rw [step_op, exec_fill_of_filling (s := u) filling, fill_srcRequest_one (s := u) short offered]
    rfl
  have trimmed : step v = .next { v.beginStep with
      buf := if s.buf = [] ∧ b ≠ 0x02#8 then [] else s.buf ++ [b]
      st := .decoding } := by
    rw [step_resyncing rfl rfl, trimToMarker_of_append_byte rfl normal]
    rfl
  rw [core_run_succ 1 filled, core_run_succ 0 trimmed, core_run_zero]
  rfl

/-! ### The operation of a clock edge (R188) -/

theorem clockedOp_of_idle {s : State} (p : Pins) (h : s.st = .idle) :
    s.clockedOp p = if p.rdReq then some .read else none := by
  simp only [State.clockedOp, h]

/-- `rd_cancel` outside `IDLE` takes the edge, unless a `RETURN` is due (R47). -/
theorem clockedOp_of_rdCancel {s : State} {p : Pins} (active : s.st ≠ .idle) (noReturn : s.returnDue = none)
    (cancel : p.rdCancel = true) : s.clockedOp p = some .cancel := by
  cases h : s.st with
  | idle => exact absurd h active
  | filling | resyncing | decoding => simp [State.clockedOp, h, noReturn, cancel]

theorem clockedOp_of_resyncing {s : State} {p : Pins} (h : s.st = .resyncing) (goOn : p.rdCancel = false) :
    s.clockedOp p = some .resync0 := by
  simp [State.clockedOp, h, returnDue_eq_none_of_st (s := s) (by simp [h]), goOn]

theorem clockedOp_of_decoding {s : State} {p : Pins} (h : s.st = .decoding) (goOn : p.rdCancel = false) :
    s.clockedOp p = some .tryDecode := by
  simp [State.clockedOp, h, goOn]

section filling

variable {s : State} {p : Pins} (filling : s.st = .filling) (goOn : p.rdCancel = false)
include filling goOn

theorem clockedOp_of_full (full : 14 ≤ s.buf.length) : s.clockedOp p = some (.fill 0) := by
  simp [State.clockedOp, filling, returnDue_eq_none_of_st (s := s) (by simp [filling]), goOn, full]

/-- Below 14 bytes the edge takes the byte that is transferred, if one is (R48). -/
theorem clockedOp_of_short (short : s.buf.length < 14) :
    s.clockedOp p = if p.inValid = true ∧ s.source ≠ [] then some (.fill 1) else none := by
  have ready : s.inReady p = true := (inReady_iff s p).2 ⟨filling, short, goOn⟩
  have transfers : s.transfers p = true ↔ p.inValid = true ∧ s.source ≠ [] := by
    rw [State.transfers, ready, Bool.true_and, Bool.and_eq_true, State.inData, List.isSome_head?]
  simp [State.clockedOp, filling, returnDue_eq_none_of_st (s := s) (by simp [filling]), goOn,
    Nat.not_le.2 short, transfers]

end filling

/-- Without `rd_cancel` an edge takes the step `ST` calls for, if there is one. -/
theorem clockedOp_of_ownOp {s : State} {p : Pins} {i : Instr} (goOn : p.rdCancel = false)
    (own : s.ownOp = some i) : s.clockedOp p = some i := by
  cases st : s.st with
  | idle => cases (ownOp_of_idle st).symm.trans own
  | filling =>
    rcases Nat.lt_or_ge s.buf.length 14 with short | full
    · cases (ownOp_of_short st short).symm.trans own
    · exact (clockedOp_of_full st goOn full).trans ((ownOp_of_full st full).symm.trans own)
  | resyncing => exact (clockedOp_of_resyncing st goOn).trans ((ownOp_of_resyncing st).symm.trans own)
  | decoding => exact (clockedOp_of_decoding st goOn).trans ((ownOp_of_decoding st).symm.trans own)

/-- The operations an edge can take (R189): `CANCEL` only with `rd_cancel`, and a `FILL` of exactly one byte
that is at the source, or of none into a full buffer. -/
theorem clockedOp_cases {s : State} {p : Pins} {i : Instr} (h : s.clockedOp p = some i) :
    i = .read ∨ i = .resync0 ∨ i = .tryDecode ∨ (i = .cancel ∧ p.rdCancel = true) ∨
      (i = .fill 0 ∧ 14 ≤ s.buf.length) ∨ (i = .fill 1 ∧ s.buf.length < 14 ∧ s.source ≠ []) := by
  by_cases idle : s.st = .idle
  · rw [clockedOp_of_idle p idle] at h
    split at h
    · exact .inl (Option.some.inj h).symm
    · cases h
  cases due : s.returnDue with
  | some q =>
    obtain rfl := Option.some.inj ((clockedOp_of_returnDue p due).symm.trans h)
    simp
  | none =>
    cases cancel : p.rdCancel with
    | true =>
      obtain rfl := Option.some.inj ((clockedOp_of_rdCancel idle due cancel).symm.trans h)
      simp
    | false =>
      cases st : s.st with
      | idle => exact absurd st idle
      | resyncing =>
        obtain rfl := Option.some.inj ((clockedOp_of_resyncing st cancel).symm.trans h)
        simp
      | decoding =>
        obtain rfl := Option.some.inj ((clockedOp_of_decoding st cancel).symm.trans h)
        simp
      | filling =>
        rcases Nat.lt_or_ge s.buf.length 14 with short | full
        · rw [clockedOp_of_short st cancel short] at h
          split at h
          · next offered =>
            obtain rfl := Option.some.inj h
            simp [short, offered]
          · cases h
        · obtain rfl := Option.some.inj ((clockedOp_of_full st cancel full).symm.trans h)
          simp [full]

/-! ### The step of a clock edge (R188, R189) -/

section edge

variable {s : State} {p : Pins} (edge : s.nextEvent = .clock p) (noReset : p.rst = false)
include edge noReset

theorem selected_of_clock : s.selected = s.clockedOp p := by
  rw [State.selected, edge]
  exact if_neg (Bool.not_eq_true _ ▸ noReset)

theorem step_of_clock {i : Instr} (op : s.clockedOp p = some i) : step s = exec i s.beginStep :=
  step_of_selected ((selected_of_clock edge noReset).trans op)

theorem step_of_clock_none (op : s.clockedOp p = none) : step s = .next s.beginStep := by
  rw [step_of_not_selected ((selected_of_clock edge noReset).trans op), edge]
  exact congrArg _ (if_neg (Bool.not_eq_true _ ▸ noReset))

end edge

/-- Settles O51: the edge runs the operation it selects, or none (R189). -/
theorem portLevelRefinesTransactionLevel : Obligations.PortLevelRefinesTransactionLevel := by
  intro s p es noReset
  set u : State := { s with events := .clock p :: es }
  have edge : u.nextEvent = .clock p := rfl
  cases op : u.clockedOp p with
  | none => exact .inl (step_of_clock_none edge noReset op)
  | some i =>
    exact .inr ⟨i, step_of_clock edge noReset op,
      (clockedOp_cases op).imp_right (.imp_right (.imp_right (.imp_left And.left)))⟩

/-- With at most 14 bytes held, a `RETURN` is due exactly when `BUF` is a valid frame. -/
theorem returnDue_eq_some_iff_of_bounded {s : State} (bounded : s.buf.length ≤ 14) (q : Payload) :
    s.returnDue = some q ↔
      s.st = .decoding ∧ ∃ f : Frame, s.buf = f.toList ∧ ValidFrame f ∧ q = decodedLanes f := by
  simp only [returnDue_eq_some_iff, takeFrame_eq_some_iff, List.take_of_length_le bounded,
    parse_eq_valid_iff_validFrame]

/-- Settles O50: each row of R188's table is the edge's operation, and that operation's own equation. -/
theorem clockEdgeFollowsThePortTable : Obligations.ClockEdgeFollowsThePortTable := by
  intro s p es noReset bounded u edge due
  have outValid_iff : s.outValid p = true ↔ due := by
    rw [State.outValid, noReset, Bool.not_false, Bool.true_and, Option.isSome_iff_exists]
    simp only [returnDue_eq_some_iff_of_bounded bounded]
    exact ⟨fun ⟨_, st, f, held, valid, _⟩ => ⟨st, f, held, valid⟩,
      fun ⟨st, f, held, valid⟩ => ⟨_, st, f, held, valid, rfl⟩⟩
  have noReturn (notDue : ¬ due) : s.returnDue = none := by
    rwa [← outValid_iff, State.outValid, noReset, Bool.not_false, Bool.true_and, Bool.not_eq_true,
      Option.isSome_eq_false_iff, Option.isNone_iff_eq_none] at notDue
  have takes {i : Instr} (op : s.clockedOp p = some i) : edge = exec i u := step_of_clock rfl noReset op
  have holds (op : s.clockedOp p = none) : edge = .next u := step_of_clock_none rfl noReset op
  refine ⟨inReady_iff s p, outValid_iff, fun idle req => ?_, fun idle req => ?_, fun f st held valid => ?_,
    fun active notDue cancel => ?_, fun st goOn full => ?_, fun b more st goOn short offer source => ?_,
    fun st goOn short offer => ?_, fun st goOn => ?_, fun st goOn short => ?_,
    fun f st goOn held invalid => ?_⟩
  · exact (takes ((clockedOp_of_idle p idle).trans (if_pos req))).trans (exec_read_of_idle (s := u) idle)
  · exact holds ((clockedOp_of_idle p idle).trans (by simp [req]))
  · have returns := (returnDue_eq_some_iff_of_bounded bounded _).2 ⟨st, f, held, valid, rfl⟩
    rw [takes (clockedOp_of_returnDue p returns), exec_tryDecode_of_returnDue (s := u) returns,
      deliver_of_eq_append (more := []) (by simpa [u] using held), State.outPayload, returns, noReset]
    exact ⟨rfl, rfl⟩
  · exact (takes (clockedOp_of_rdCancel active (noReturn notDue) cancel)).trans
      (exec_cancel_of_ne_idle (s := u) active)
  · rw [takes (clockedOp_of_full st goOn full.ge), exec_fill_of_filling (s := u) st, fill_srcRequest_zero]
    rfl
  · rw [takes ((clockedOp_of_short st goOn short).trans (if_pos ⟨offer, by simp [source]⟩)),
      exec_fill_of_filling (s := u) st, fill_srcRequest_one (s := u) short source]
    rfl
  · exact holds ((clockedOp_of_short st goOn short).trans (by simp [offer]))
  · exact takes (clockedOp_of_resyncing st goOn)
  · exact (takes (clockedOp_of_decoding st goOn)).trans (exec_tryDecode_of_short (s := u) st short)
  · have front : takeFrame u.buf = some f := (congrArg takeFrame held).trans (takeFrame_toList f)
    have verdict := parse_of_not_validFrame invalid
    rw [takes (clockedOp_of_decoding st goOn), exec_tryDecode_of_invalid (s := u) st front verdict,
      exec_resync1_of_invalid (s := u) st front verdict]

/-! ### Everything a step can do -/

theorem applyEvent_of_resets {e : Event} (h : e.resets = true) (s : State) :
    s.applyEvent e = s.resetFramer := by
  cases e with
  | quiet | op | present | arrive => cases h
  | reset => rfl
  | clock p => exact if_pos h

theorem bytes_of_resets {e : Event} (h : e.resets = true) : e.bytes = [] := by
  cases e with
  | arrive => cases h
  | quiet | op | present | reset | clock => rfl

theorem selected_of_resets {s : State} (h : s.nextEvent.resets = true) : s.selected = none := by
  rw [State.selected]
  cases e : s.nextEvent with
  | quiet | op | present => rw [e] at h; cases h
  | arrive | reset => rfl
  | clock p => exact if_pos (by rwa [e] at h)

theorem step_of_resets {s : State} (h : s.nextEvent.resets = true) :
    step s = .next s.beginStep.resetFramer := by
  rw [step_of_not_selected (selected_of_resets h), applyEvent_of_resets h]

theorem applyEvent_of_not_resets {e : Event} (h : e.resets = false) (s : State) :
    s.applyEvent e = { s with source := s.source ++ e.bytes } := by
  have noBytes : s = { s with source := s.source ++ [] } := by rw [List.append_nil]
  cases e with
  | quiet | op | present => exact noBytes
  | arrive bs => rfl
  | reset => cases h
  | clock p => exact (if_neg (Bool.not_eq_true _ ▸ h)).trans noBytes

/-- A step takes an operation and brings no bytes, or its event brings bytes and does nothing else, or it is
one of reset. -/
theorem step_cases {s t : State} (h : step s = .next t) :
    (∃ i, s.selected = some i ∧ s.nextEvent.bytes = [] ∧ Effect i s.beginStep t) ∨
      t = { s.beginStep with source := s.source ++ s.nextEvent.bytes } ∨
      (s.nextEvent.resets = true ∧ t = s.beginStep.resetFramer) := by
  rcases step_next_cases h with ⟨i, selected, e⟩ | ⟨-, rfl⟩
  · exact .inl ⟨i, selected, bytes_of_selected selected, effect_of_exec e⟩
  · cases resets : s.nextEvent.resets with
    | true => exact .inr (.inr ⟨rfl, applyEvent_of_resets resets _⟩)
    | false => exact .inr (.inl (applyEvent_of_not_resets resets _))

/-- A step takes its event off the schedule. -/
theorem step_events {s t : State} (h : step s = .next t) : t.events = s.events.tail := by
  rcases step_next_cases h with ⟨i, -, e⟩ | ⟨-, rfl⟩
  · exact (exec_events e).trans (State.beginStep_events s)
  · exact (State.applyEvent_events _ _).trans (State.beginStep_events s)

/-- Only an event in which the host cancels selects `CANCEL` (R170, R46). -/
theorem cancels_of_selected {s : State} (h : s.selected = some .cancel) : s.nextEvent.cancels = true := by
  rw [State.selected] at h
  cases e : s.nextEvent with
  | quiet =>
    simp only [e, State.ownOp] at h
    split at h
    · cases h
    · split at h <;> cases h
    · cases h
    · cases h
  | op i => simp_all [Event.cancels]
  | present w =>
    simp only [e, presentedOp] at h
    by_cases valid : ValidFrame (unpackFrame w)
    · rw [classify_of_validFrame valid] at h
      cases h
    · rw [classify_of_not_validFrame valid] at h
      cases h
  | arrive | reset => simp [e] at h
  | clock p =>
    simp only [e] at h
    split at h
    · cases h
    · rcases clockedOp_cases h with h | h | h | ⟨-, cancel⟩ | ⟨h, -⟩ | ⟨h, -⟩
      · cases h
      · cases h
      · cases h
      · exact cancel
      · cases h
      · cases h

/-- Settles O38: of a step's effects only the `RETURN` puts out a payload (R165, R42). -/
theorem deliveryOnlyOfAValidBufferedFrame : Obligations.DeliveryOnlyOfAValidBufferedFrame := by
  intro s t p h delivered
  rcases step_cases h with ⟨i, -, -, effect⟩ | rfl | ⟨-, rfl⟩
  · cases effect with
    | delivers decoding f front valid =>
      exact ⟨decoding, rfl, f, takeFrame_split front, valid, (Option.some.inj delivered).symm⟩
    | holds _ _ _ delivery => cases delivered.symm.trans delivery
    | resyncs => cases delivered.symm.trans (State.trimToMarker_delivery s.beginStep 0)
    | fails => cases delivered.symm.trans (State.resyncAfterFailure_delivery s.beginStep)
    | reads | fills | waits | cancels => cases delivered
  · cases delivered
  · cases delivered

/-- Settles O39: every other effect of a step outside `IDLE` leaves `ST` outside `IDLE` (R166, R242). -/
theorem readEndsOnlyByReturnCancelOrReset : Obligations.ReadEndsOnlyByReturnCancelOrReset := by
  intro s t h active ended
  rcases step_cases h with ⟨i, selected, -, effect⟩ | rfl | ⟨resets, -⟩
  · cases effect with
    | delivers => exact .inl rfl
    | cancels op => exact .inr (.inl (cancels_of_selected (op ▸ selected)))
    | holds _ st => exact absurd (st.symm.trans ended) active
    | reads | fills | resyncs | waits | fails => cases ended
  · exact absurd ended active
  · exact .inr (.inr resets)

end Sys2Proof.Proofs.FramerSteps

/-! The invariants of runs (41_stream_framer.md R174, R176, R178, R179): every operation and every step keeps
them. -/

namespace Sys2Proof.Proofs.FramerInvariants

open Sys2Proof Sys2Proof.Machine
open Sys2Proof.Proofs.FramerOps Sys2Proof.Proofs.FramerSteps

/-! ### The bound and the normal form (R174, R176) -/

theorem inv_of_st_ne {s : State} (bounded : s.buf.length ≤ 14) (h : s.st ≠ .decoding) : s.Inv :=
  ⟨bounded, fun decoding => absurd decoding h⟩

/-- After a trim `BUF` is in normal form, so `DECODING` may be entered (R162, R164). -/
theorem inv_of_trimToMarker {s : State} (bounded : s.buf.length ≤ 14) (k : Nat) :
    ((s.trimToMarker k).setSt .decoding).Inv :=
  ⟨(length_trimToMarker_le s k).trans ((Nat.sub_le _ k).trans bounded), fun _ => markerFirst_trimToMarker s k⟩

theorem length_buf_deliver_le {s : State} (bounded : s.buf.length ≤ 14) (p : Payload) :
    (s.deliver p).buf.length ≤ 14 := by
  rw [State.deliver_buf, List.length_drop]
  omega

theorem inv_of_effect {i : Instr} {s t : State} (inv : s.Inv) (effect : Effect i s t) : t.Inv := by
  have bounded : s.buf.length ≤ 14 := inv.bounded
  cases effect with
  | holds buf st =>
    exact ⟨buf ▸ inv.bounded, fun decoding => buf ▸ inv.decodingNormal (st ▸ decoding)⟩
  | fills m => exact inv_of_st_ne (length_buf_fill_le bounded m) (by simp)
  | resyncs => exact inv_of_trimToMarker bounded 0
  | fails => exact inv_of_trimToMarker bounded 1
  | delivers _ f => exact inv_of_st_ne (length_buf_deliver_le bounded _) (by simp)
  | reads | waits | cancels => exact inv_of_st_ne bounded (by simp)

/-- Settles O41: every effect of an operation keeps both, an event by itself leaves `BUF` or empties it
(R174, R176). -/
theorem everyStepKeepsBoundAndNormalForm : Obligations.EveryStepKeepsBoundAndNormalForm := by
  intro s t inv h
  rcases step_cases h with ⟨i, -, -, effect⟩ | rfl | ⟨-, rfl⟩
  · exact inv_of_effect (s := s.beginStep) ⟨inv.bounded, inv.decodingNormal⟩ effect
  · exact ⟨inv.bounded, inv.decodingNormal⟩
  · exact inv_of_st_ne (Nat.zero_le _) (by simp)

/-! ### The states of uncancelled `READ`s (R178, R179) -/

/-- Outside `IDLE` and `FILLING` the stronger invariant asks for nothing more. -/
theorem uncancelledInv_of_st_ne {s : State} (inv : s.Inv) (notIdle : s.st ≠ .idle)
    (notFilling : s.st ≠ .filling) : s.UncancelledInv :=
  ⟨inv, fun h => absurd h notIdle, fun h => absurd h notFilling, fun h => absurd h notFilling⟩

theorem uncancelledInv_of_idle {s : State} (inv : s.Inv) (idle : s.st = .idle) (empty : s.buf = []) :
    s.UncancelledInv :=
  have notFilling : s.st ≠ .filling := by simp [idle]
  ⟨inv, fun _ => empty, fun h => absurd h notFilling, fun h => absurd h notFilling⟩

theorem uncancelledInv_of_filling {s : State} (inv : s.Inv) (filling : s.st = .filling)
    (short : s.buf.length < 14) (normal : markerFirst s.buf = true) : s.UncancelledInv :=
  have notIdle : s.st ≠ .idle := by simp [filling]
  ⟨inv, fun h => absurd h notIdle, fun _ => short, fun _ => normal⟩

/-- The bound makes a delivery consume the whole buffer. -/
theorem buf_deliver_eq_nil {s : State} (bounded : s.buf.length ≤ 14) (p : Payload) : (s.deliver p).buf = [] :=
  List.drop_of_length_le bounded

theorem uncancelledInv_of_effect {i : Instr} {s t : State} (inv : s.UncancelledInv) (noCancel : i ≠ .cancel)
    (effect : Effect i s t) : t.UncancelledInv := by
  have inv' : t.Inv := inv_of_effect inv.toInv effect
  cases effect with
  | holds buf st =>
    exact ⟨inv', fun h => buf ▸ inv.idleEmpty (st ▸ h), fun h => buf ▸ inv.fillingShort (st ▸ h),
      fun h => buf ▸ inv.fillingNormal (st ▸ h)⟩
  | reads idle =>
    have empty := inv.idleEmpty idle
    exact uncancelledInv_of_filling inv' rfl (by simp [empty]) (by simp [empty, markerFirst])
  | waits decoding short => exact uncancelledInv_of_filling inv' rfl short (inv.decodingNormal decoding)
  | delivers => exact uncancelledInv_of_idle inv' rfl (buf_deliver_eq_nil inv.bounded _)
  | fills | resyncs | fails => exact uncancelledInv_of_st_ne inv' (by simp) (by simp)
  | cancels op => exact absurd op noCancel

/-- Settles O42: only an event in which the host cancels selects `CANCEL`, and every other effect keeps the
boundaries of `READ`s (R174, R178, R179). -/
theorem uncancelledStepKeepsReadBoundaries : Obligations.UncancelledStepKeepsReadBoundaries := by
  intro s t inv noCancel h
  have inv' : t.Inv := everyStepKeepsBoundAndNormalForm s t inv.toInv h
  rcases step_cases h with ⟨i, selected, -, effect⟩ | rfl | ⟨-, rfl⟩
  · have notCancel : i ≠ .cancel := by
      rintro rfl
      exact Bool.false_ne_true (noCancel.symm.trans (cancels_of_selected selected))
    have inv₀ : s.beginStep.UncancelledInv :=
      ⟨⟨inv.bounded, inv.decodingNormal⟩, inv.idleEmpty, inv.fillingShort, inv.fillingNormal⟩
    exact uncancelledInv_of_effect inv₀ notCancel effect
  · exact ⟨inv', inv.idleEmpty, inv.fillingShort, inv.fillingNormal⟩
  · exact uncancelledInv_of_idle inv' rfl rfl

end Sys2Proof.Proofs.FramerInvariants

/-! `SCAN` (41_stream_framer.md R181, R183): its recursion byte by byte, and what it returns. -/

namespace Sys2Proof.Proofs.StreamScan

open Sys2Proof Sys2Proof.Machine
open Sys2Proof.Proofs.Verdict Sys2Proof.Proofs.Candidates Sys2Proof.Proofs.FramerOps

/-! ### Windows of a stream -/

theorem toList_append_eq_cons (f : Frame) (rest : List Byte) :
    f.toList ++ rest = f[0] :: (f.toList.drop 1 ++ rest) := by
  rw [← List.cons_append, ← toList_eq_cons]

theorem takeFrame_append_of_eq_some {c : List Byte} {f : Frame} (h : takeFrame c = some f) (x : List Byte) :
    takeFrame (c ++ x) = some f := by
  rw [takeFrame_split h, List.append_assoc, takeFrame_append]

/-! ### One byte of `SCAN` (R181) -/

theorem scan_cons_of_ne {b : Byte} (h : b ≠ 0x02#8) (rest : List Byte) : scan (b :: rest) = scan rest := by
  rw [scan, if_neg h]

/-- The bytes run out before the window is complete. -/
theorem scan_of_length_lt {bytes : List Byte} (h : bytes.length < 14) : scan bytes = none := by
  induction bytes with
  | nil => rfl
  | cons b rest ih =>
    by_cases marker : b = 0x02#8
    · rw [scan, if_pos marker, (takeFrame_eq_none_iff _).2 h]
    · rw [scan_cons_of_ne marker, ih (Nat.lt_of_succ_lt h)]

theorem scan_of_validFrame {f : Frame} (valid : ValidFrame f) (rest : List Byte) :
    scan (f.toList ++ rest) = some (decodedLanes f, rest) := by
  have cons := toList_append_eq_cons f rest
  have front : takeFrame (f[0] :: (f.toList.drop 1 ++ rest)) = some f := cons ▸ takeFrame_append f rest
  rw [cons, scan, if_pos valid.1, front, ← cons]
  simp only [parse_of_validFrame valid, List.drop_left' (Vector.length_toList ..)]

/-- A complete window that is not valid is passed over by one byte. -/
theorem scan_cons_of_not_validFrame {b : Byte} {rest : List Byte} {f : Frame}
    (front : takeFrame (b :: rest) = some f) (invalid : ¬ ValidFrame f) : scan (b :: rest) = scan rest := by
  by_cases marker : b = 0x02#8
  · rw [scan, if_pos marker, front]
    simp only [parse_of_not_validFrame invalid]
  · exact scan_cons_of_ne marker rest

theorem scan_of_not_validFrame {f : Frame} (invalid : ¬ ValidFrame f) (rest : List Byte) :
    scan (f.toList ++ rest) = scan (f.toList.drop 1 ++ rest) := by
  have cons := toList_append_eq_cons f rest
  rw [cons]
  exact scan_cons_of_not_validFrame (cons ▸ takeFrame_append f rest) invalid

/-- The four cases of the first byte. -/
theorem scan_cons_cases (b : Byte) (rest : List Byte) :
    (b ≠ 0x02#8 ∧ scan (b :: rest) = scan rest) ∨
      ((b :: rest).length < 14 ∧ scan (b :: rest) = none) ∨
      ∃ (f : Frame) (after : List Byte), b :: rest = f.toList ++ after ∧
        ((ValidFrame f ∧ scan (b :: rest) = some (decodedLanes f, after)) ∨
          (¬ ValidFrame f ∧ scan (b :: rest) = scan rest)) := by
  by_cases marker : b = 0x02#8
  · rcases Nat.lt_or_ge (b :: rest).length 14 with short | complete
    · exact .inr (.inl ⟨short, scan_of_length_lt short⟩)
    · obtain ⟨f, front⟩ := exists_takeFrame_of_le_length complete
      refine .inr (.inr ⟨f, _, takeFrame_split front, ?_⟩)
      by_cases valid : ValidFrame f
      · refine .inl ⟨valid, ?_⟩
        conv_lhs => rw [takeFrame_split front]
        exact scan_of_validFrame valid _
      · exact .inr ⟨valid, scan_cons_of_not_validFrame front valid⟩
  · exact .inl ⟨marker, scan_cons_of_ne marker rest⟩

/-! ### Bytes that `SCAN` passes over -/

/-- Bytes without a start marker are skipped. -/
theorem scan_append_of_not_mem {noise : List Byte} (h : 0x02#8 ∉ noise) (rest : List Byte) :
    scan (noise ++ rest) = scan rest := by
  induction noise with
  | nil => rfl
  | cons b noise ih =>
    obtain ⟨notMarker, noMarker⟩ := not_or.1 (List.mem_cons.not.1 h)
    rw [List.cons_append, scan_cons_of_ne (Ne.symm notMarker), ih noMarker]

/-- Bytes at none of which a valid window begins are skipped, as soon as 14 bytes follow. -/
theorem scan_append_of_no_validFrame {front : List Byte} {rest : List Byte} (complete : 14 ≤ rest.length)
    (h : ∀ i < front.length, ∀ g after, (front ++ rest).drop i = g.toList ++ after → ¬ ValidFrame g) :
    scan (front ++ rest) = scan rest := by
  induction front with
  | nil => rfl
  | cons b front ih =>
    have skipped : scan (b :: (front ++ rest)) = scan (front ++ rest) := by
      obtain ⟨f, window⟩ := exists_takeFrame_of_le_length (c := b :: (front ++ rest)) (by simp; omega)
      exact scan_cons_of_not_validFrame window (h 0 (Nat.succ_pos _) f _ (takeFrame_split window))
    rw [List.cons_append, skipped]
    exact ih fun i hi => h (i + 1) (Nat.succ_lt_succ hi)

/-- Without a result from the whole there is none from any later byte on. -/
theorem scan_eq_none_of_append {front rest : List Byte} (h : scan (front ++ rest) = none) :
    scan rest = none := by
  induction front with
  | nil => exact h
  | cons b front ih =>
    apply ih
    rcases scan_cons_cases b (front ++ rest) with ⟨-, e⟩ | ⟨short, -⟩ | ⟨f, after, -, ⟨-, e⟩ | ⟨-, e⟩⟩
    · exact e.symm.trans h
    · exact scan_of_length_lt (Nat.lt_of_succ_lt short)
    · cases e.symm.trans h
    · exact e.symm.trans h

/-- Settles O52: one equation for each case of R181's recursion. -/
theorem scanIsTheSpecsRecursion : Obligations.ScanIsTheSpecsRecursion := by
  refine fun bytes => ⟨fun noMarker => ?_, ?_⟩
  · rw [← List.append_nil bytes, scan_append_of_not_mem noMarker]
    rfl
  · rintro noise more rfl noMarker
    rw [scan_append_of_not_mem noMarker]
    refine ⟨fun short => scan_of_length_lt (Nat.succ_lt_succ short),
      fun f rest window => ⟨fun valid => ?_, ?_⟩⟩
    · rw [window, scan_of_validFrame valid]
    · exact scan_cons_of_not_validFrame (takeFrame_of_eq_append window)

/-! ### What `SCAN` returns (R183) -/

/-- `p` is the payload of a valid window with `rest` behind it, and every marker before that window begins a
complete window that is not valid. -/
def FirstValidWindow (bytes rest : List Byte) (p : Payload) : Prop :=
  ∃ (front : List Byte) (f : Frame), bytes = front ++ f.toList ++ rest ∧ ValidFrame f ∧ p = decodedLanes f ∧
    ∀ i : Nat, i < front.length → bytes[i]? = some 0x02#8 →
      ∃ (g : Frame) (after : List Byte), bytes.drop i = g.toList ++ after ∧ ¬ ValidFrame g

theorem firstValidWindow_of_validFrame {f : Frame} (valid : ValidFrame f) (rest : List Byte) :
    FirstValidWindow (f.toList ++ rest) rest (decodedLanes f) :=
  ⟨[], f, rfl, valid, rfl, fun i hi => absurd hi (Nat.not_lt_zero i)⟩

/-- A byte in front changes nothing, if its own window, should it be a marker, is complete and not valid. -/
theorem FirstValidWindow.cons {b : Byte} {bytes rest : List Byte} {p : Payload}
    (first : FirstValidWindow bytes rest p)
    (tried : b = 0x02#8 → ∃ (g : Frame) (after : List Byte), b :: bytes = g.toList ++ after ∧ ¬ ValidFrame g) :
    FirstValidWindow (b :: bytes) rest p := by
  obtain ⟨front, f, split_eq, valid, payload, earlier⟩ := first
  refine ⟨b :: front, f, congrArg (b :: ·) split_eq, valid, payload, fun i hi marker => ?_⟩
  cases i with
  | zero => exact tried (Option.some.inj marker)
  | succ i => exact earlier i (Nat.lt_of_succ_lt_succ hi) marker

theorem firstValidWindow_of_scan {bytes rest : List Byte} {p : Payload} (h : scan bytes = some (p, rest)) :
    FirstValidWindow bytes rest p := by
  induction bytes with
  | nil => cases h
  | cons b bytes ih =>
    rcases scan_cons_cases b bytes with ⟨notMarker, e⟩ | ⟨-, e⟩ | ⟨f, after, window, ⟨valid, e⟩ | ⟨invalid, e⟩⟩
    · exact (ih (e.symm.trans h)).cons fun marker => absurd marker notMarker
    · cases e.symm.trans h
    · cases e.symm.trans h
      exact window ▸ firstValidWindow_of_validFrame valid rest
    · exact (ih (e.symm.trans h)).cons fun _ => ⟨f, after, window, invalid⟩

/-- Settles O53: what `SCAN` returns, by recursion over the bytes it passes (R183). -/
theorem noStartMarkerIsSkippedUntried : Obligations.NoStartMarkerIsSkippedUntried :=
  fun _ _ _ => firstValidWindow_of_scan

/-- What `SCAN` returns costs at least the 14 bytes of a frame. -/
theorem length_of_scan_eq_some {bytes rest : List Byte} {p : Payload} (h : scan bytes = some (p, rest)) :
    rest.length + 14 ≤ bytes.length := by
  obtain ⟨front, f, rfl, -⟩ := firstValidWindow_of_scan h
  have frame : f.toList.length = 14 := Vector.length_toList ..
  simp only [List.length_append, frame]
  omega

end Sys2Proof.Proofs.StreamScan

/-! The framer follows `SCAN` (41_stream_framer.md R181, R182): one operation, one step, and the payloads of
any run. -/

namespace Sys2Proof.Proofs.StreamSafety

open Sys2Proof Sys2Proof.Machine
open Sys2Proof.Proofs.FramerOps Sys2Proof.Proofs.FramerSteps Sys2Proof.Proofs.StreamScan

/-! ### One operation and the stream -/

/-- What a trim throws away after its first `k` bytes means nothing to `SCAN`. -/
theorem scan_trimToMarker_append (s : State) (k : Nat) (later : List Byte) :
    scan ((s.trimToMarker k).buf ++ later) = scan (s.buf.drop k ++ later) := by
  obtain ⟨lost, kept, split_eq, noMarker, -, trimmed⟩ := trimToMarker_spec s k
  rw [trimmed, split_eq, List.append_assoc, scan_append_of_not_mem noMarker]

/-- The marker a failed attempt throws away is one `SCAN` passes over. -/
theorem scan_resyncAfterFailure_append {s : State} {f : Frame} (front : takeFrame s.buf = some f)
    (invalid : ¬ ValidFrame f) (later : List Byte) :
    scan (s.resyncAfterFailure.buf ++ later) = scan (s.buf ++ later) := by
  rw [State.resyncAfterFailure_buf, scan_trimToMarker_append]
  cases held : s.buf with
  | nil => rfl
  | cons b more =>
    have window := takeFrame_append_of_eq_some (held ▸ front) later
    exact (scan_cons_of_not_validFrame window invalid).symm

/-- An operation keeps what `SCAN` makes of the bytes held, at the source and later, or it delivers exactly
what `SCAN` returns and leaves exactly what `SCAN` leaves. -/
theorem scan_of_effect {i : Instr} {s t : State} (effect : Effect i s t) (later : List Byte) :
    (t.delivery = s.delivery ∧ scan (t.buf ++ (t.source ++ later)) = scan (s.buf ++ (s.source ++ later))) ∨
      ∃ p, t = s.deliver p ∧ scan (s.buf ++ (s.source ++ later)) = some (p, t.buf ++ (t.source ++ later)) := by
  cases effect with
  | holds buf _ source delivery => exact .inl ⟨delivery, by rw [buf, source]⟩
  | fills m =>
    refine .inl ⟨rfl, congrArg scan ?_⟩
    simp only [fill_srcRequest_eq, State.setSt_buf, State.setSt_source, List.append_assoc]
    rw [← List.append_assoc (s.source.take _), List.take_append_drop]
  | resyncs =>
    refine .inl ⟨State.trimToMarker_delivery s 0, ?_⟩
    rw [State.setSt_buf, scan_trimToMarker_append, List.drop_zero, State.setSt_source,
      State.trimToMarker_source]
  | fails _ f front invalid =>
    refine .inl ⟨State.resyncAfterFailure_delivery s, ?_⟩
    rw [State.resyncAfterFailure_source, scan_resyncAfterFailure_append front invalid]
  | delivers _ f front valid =>
    refine .inr ⟨_, rfl, ?_⟩
    conv_lhs => rw [takeFrame_split front, List.append_assoc]
    exact scan_of_validFrame valid _
  | reads | waits | cancels => exact .inl ⟨rfl, rfl⟩

/-! ### One step and the stream (R181) -/

/-- The stream with the bytes of the coming event by themselves. -/
theorem stream_eq (s : State) :
    s.stream = s.buf ++ (s.source ++ (s.nextEvent.bytes ++ s.events.tail.flatMap Event.bytes)) := by
  rw [State.stream, List.append_assoc, State.nextEvent]
  cases s.events with
  | nil => rfl
  | cons e es => rw [List.flatMap_cons, List.headD_cons, List.tail_cons]

/-- The stream after a step, whose event is off the schedule. -/
theorem stream_of_step {s t : State} (h : step s = .next t) :
    t.stream = t.buf ++ (t.source ++ s.events.tail.flatMap Event.bytes) := by
  rw [State.stream, List.append_assoc, step_events h]

/-- Settles O54: the operations by `scan_of_effect`; bytes that arrive were in the stream before (R181). -/
theorem everyStepFollowsTheStreamScan : Obligations.EveryStepFollowsTheStreamScan := by
  intro s t noReset h
  rw [stream_of_step h, stream_eq s]
  rcases step_cases h with ⟨i, -, noBytes, effect⟩ | rfl | ⟨resets, -⟩
  · rw [noBytes, List.nil_append]
    rcases scan_of_effect effect (s.events.tail.flatMap Event.bytes) with kept | ⟨p, rfl, found⟩
    · exact .inl kept
    · exact .inr ⟨p, rfl, found⟩
  · exact .inl ⟨rfl, by rw [List.append_assoc s.source, State.beginStep_buf]⟩
  · exact absurd resets (Bool.not_eq_true _ ▸ noReset)

/-! ### Runs (R182) -/

/-- A step has a next state, or it is refused (R200). -/
theorem step_next_or_refused (s : State) : (∃ t, step s = .next t) ∨ ∃ r, step s = .refused r := by
  cases h : step s with
  | next t => exact .inl ⟨t, rfl⟩
  | fault r => cases r
  | refused r => exact .inr ⟨r, rfl⟩

theorem deliveries_of_refused {s : State} {r : Refusal} (k : Nat) (h : step s = .refused r) :
    deliveries (k + 1) s = [] := by
  rw [deliveries, h]

/-- `SCAN` once and then as often as one likes. -/
theorem scans_succ {n : Nat} {bytes rest left : List Byte} {p : Payload} {ps : List Payload}
    (first : scan bytes = some (p, rest)) (more : scans n rest = some (ps, left)) :
    scans (n + 1) bytes = some (p :: ps, left) := by
  simp only [scans, first, more]

theorem scan_of_scans_succ {n : Nat} {bytes left : List Byte} {p : Payload} {ps : List Payload}
    (h : scans (n + 1) bytes = some (p :: ps, left)) : ∃ rest, scan bytes = some (p, rest) := by
  simp only [scans] at h
  split at h
  · cases h
  · next q rest first =>
    split at h
    · cases h
    · cases h
      exact ⟨rest, first⟩

/-- Streams of which `SCAN` makes the same scan alike any number of times. -/
theorem scans_congr {a b left : List Byte} {n : Nat} {ps : List Payload} (same : scan a = scan b)
    (h : scans n a = some (ps, left)) : ∃ left', scans n b = some (ps, left') ∧ scan left' = scan left := by
  cases n with
  | zero =>
    cases h
    exact ⟨b, rfl, same.symm⟩
  | succ n => exact ⟨left, by rw [← h, scans, scans, same], rfl⟩

/-- Settles O55, by induction on the steps: each is one of `everyStepFollowsTheStreamScan` (R182). -/
theorem runsDeliverTheScannedPayloads : Obligations.RunsDeliverTheScannedPayloads := by
  intro k
  induction k with
  | zero =>
    refine fun s _ => ⟨s.stream, rfl, fun t h => ?_⟩
    cases (core_run_zero s).symm.trans h
    rfl
  | succ k ih =>
    intro s noReset
    rcases step_next_or_refused s with ⟨u, h⟩ | ⟨r, h⟩
    · have noReset_u : ∀ e ∈ u.events, e.resets = false := fun e he =>
        noReset e (List.mem_of_mem_tail (step_events h ▸ he))
      have noReset_next : s.nextEvent.resets = false := by
        rw [State.nextEvent]
        cases events : s.events with
        | nil => rfl
        | cons e es => exact noReset e (events ▸ List.mem_cons_self ..)
      obtain ⟨left, scanned, rest⟩ := ih u noReset_u
      rw [deliveries_succ k h, core_run_succ k h]
      rcases everyStepFollowsTheStreamScan s u noReset_next h with ⟨nothing, same⟩ | ⟨p, delivered, first⟩
      · obtain ⟨left', scanned', same'⟩ := scans_congr same scanned
        rw [nothing]
        exact ⟨left', scanned', fun t ht => same'.trans (rest t ht)⟩
      · rw [delivered]
        exact ⟨left, scans_succ first scanned, rest⟩
    · rw [deliveries_of_refused k h, core_run_refused k h]
      exact ⟨s.stream, rfl, nofun⟩

/-! ### Streams without a result (R184) -/

/-- Without a result a step delivers nothing, and a reset, which takes bytes from the front, gives none. -/
theorem step_of_scan_eq_none {s t : State} (blocked : scan s.stream = none) (h : step s = .next t) :
    t.delivery = none ∧ scan t.stream = none := by
  cases resets : s.nextEvent.resets with
  | false =>
    rcases everyStepFollowsTheStreamScan s t resets h with ⟨nothing, same⟩ | ⟨p, -, first⟩
    · exact ⟨nothing, same.trans blocked⟩
    · cases blocked.symm.trans first
  | true =>
    cases (step_of_resets resets).symm.trans h
    rw [stream_eq, bytes_of_resets resets] at blocked
    rw [stream_of_step h]
    exact ⟨rfl, scan_eq_none_of_append blocked⟩

/-- Settles O58, by induction on the steps (R184). -/
theorem nothingIsDeliveredWithoutAScanResult : Obligations.NothingIsDeliveredWithoutAScanResult := by
  intro k
  induction k with
  | zero => exact fun s _ => rfl
  | succ k ih =>
    intro s blocked
    rcases step_next_or_refused s with ⟨t, h⟩ | ⟨r, h⟩
    · obtain ⟨nothing, blocked'⟩ := step_of_scan_eq_none blocked h
      rw [deliveries_succ k h, nothing, ih t blocked']
      rfl
    · exact deliveries_of_refused k h

end Sys2Proof.Proofs.StreamSafety

/-! A `READ` in progress returns what `SCAN` returns (41_stream_framer.md R182, R184 to R188): every step the
framer takes brings the `READ` nearer to its `RETURN`, so every schedule with enough of them reaches it. -/

namespace Sys2Proof.Proofs.StreamLiveness

open Sys2Proof Sys2Proof.Machine
open Sys2Proof.Proofs.Candidates Sys2Proof.Proofs.FramerOps Sys2Proof.Proofs.FramerSteps
open Sys2Proof.Proofs.FramerInvariants Sys2Proof.Proofs.StreamScan Sys2Proof.Proofs.StreamSafety

/-! ### A `READ` in progress -/

/-- A `READ` is in progress, and `SCAN` of the bytes held and at the source returns `p` and leaves `rest`. -/
structure Reading (p : Payload) (rest : List Byte) (s : State) : Prop where
  active : s.st ≠ .idle
  inv : s.Inv
  scanned : scan (s.buf ++ s.source) = some (p, rest)

/-- The step just taken delivered `p`; `BUF` is empty and `rest` is still at the source. -/
structure Returned (p : Payload) (rest : List Byte) (s : State) : Prop where
  idle : s.st = .idle
  empty : s.buf = []
  source : s.source = rest
  delivered : s.delivery = some p

/-- An operation other than `CANCEL` goes on with the `READ` in silence, or it is its `RETURN`. -/
theorem reading_or_returned {p : Payload} {rest : List Byte} {i : Instr} {s t : State}
    (reading : Reading p rest s) (silent : s.delivery = none) (noCancel : i ≠ .cancel)
    (effect : Effect i s t) : (t.delivery = none ∧ Reading p rest t) ∨ Returned p rest t := by
  have bounded : s.buf.length ≤ 14 := reading.inv.bounded
  rcases scan_of_effect effect [] with ⟨kept, same⟩ | ⟨q, rfl, found⟩
  · have active : t.st ≠ .idle := by
      cases effect with
      | holds _ st => exact st ▸ reading.active
      | cancels op => exact absurd op noCancel
      | delivers => exact absurd (kept.trans silent) (by simp)
      | reads | fills | resyncs | waits | fails => simp
    simp only [List.append_nil] at same
    exact .inl ⟨kept.trans silent, active, inv_of_effect reading.inv effect, same.trans reading.scanned⟩
  · rw [buf_deliver_eq_nil bounded, List.append_nil, List.append_nil, reading.scanned] at found
    cases found
    exact .inr ⟨rfl, buf_deliver_eq_nil bounded _, rfl, rfl⟩

theorem reading_beginStep {p : Payload} {rest : List Byte} {s : State} (reading : Reading p rest s) :
    Reading p rest s.beginStep :=
  ⟨reading.active, ⟨reading.inv.bounded, reading.inv.decodingNormal⟩, reading.scanned⟩

/-! ### How far the `RETURN` is -/

/-- How many steps the framer takes at most before it asks the source for another byte. -/
def phase (s : State) : Nat :=
  match s.st with
  | .idle => 0
  | .filling => if 14 ≤ s.buf.length then 4 else 0
  | .resyncing => 3
  | .decoding => if 14 ≤ s.buf.length then 2 else 1

/-- A bound on the steps of the `READ` that is reached with all bytes at the source taken: four for each byte
there, and those before the next byte. -/
def effort (s : State) : Nat := 4 * s.source.length + phase s

theorem phase_of_short {s : State} (h : s.st = .filling) (short : s.buf.length < 14) : phase s = 0 := by
  simp only [phase, h]
  exact if_neg (Nat.not_le.2 short)

theorem phase_of_full {s : State} (h : s.st = .filling) (full : 14 ≤ s.buf.length) : phase s = 4 := by
  simp only [phase, h]
  exact if_pos full

theorem phase_of_resyncing {s : State} (h : s.st = .resyncing) : phase s = 3 := by
  simp only [phase, h]

theorem phase_of_decoding {s : State} (h : s.st = .decoding) :
    phase s = if 14 ≤ s.buf.length then 2 else 1 := by
  simp only [phase, h]

theorem phase_le (s : State) : phase s ≤ 4 := by
  unfold phase
  split
  · omega
  · split <;> omega
  · omega
  · split <;> omega

theorem effort_le (s : State) : effort s ≤ 4 * s.source.length + 4 :=
  Nat.add_le_add_left (phase_le s) _

/-- Outside `IDLE` only a framer that needs a byte has no step of its own. -/
theorem short_of_phase_eq_zero {s : State} (active : s.st ≠ .idle) (h : phase s = 0) :
    s.st = .filling ∧ s.buf.length < 14 := by
  cases st : s.st with
  | idle => exact absurd st active
  | filling =>
    refine ⟨rfl, Nat.lt_of_not_le fun full => ?_⟩
    cases (phase_of_full st full).symm.trans h
  | resyncing => cases (phase_of_resyncing st).symm.trans h
  | decoding =>
    rw [phase_of_decoding st] at h
    split at h <;> cases h

theorem phase_eq_zero_of_ownOp_eq_none {s : State} (h : s.ownOp = none) : phase s = 0 := by
  cases st : s.st with
  | idle => simp only [phase, st]
  | filling =>
    rcases Nat.lt_or_ge s.buf.length 14 with short | full
    · exact phase_of_short st short
    · cases (ownOp_of_full st full).symm.trans h
  | resyncing => cases (ownOp_of_resyncing st).symm.trans h
  | decoding => cases (ownOp_of_decoding st).symm.trans h

section reading

variable {p : Payload} {rest : List Byte} {s : State} (reading : Reading p rest s)
include reading

/-- While the framer needs a byte, `SCAN`'s frame is not complete in `BUF`. -/
theorem length_rest_lt_of_short (short : s.buf.length < 14) : rest.length < s.source.length := by
  have := length_of_scan_eq_some reading.scanned
  rw [List.length_append] at this
  omega

/-- The bytes after `SCAN`'s frame are not among those the `READ` needs. -/
theorem length_rest_lt_effort : 4 * rest.length < effort s := by
  have consumed := length_of_scan_eq_some reading.scanned
  have bounded : s.buf.length ≤ 14 := reading.inv.bounded
  rw [List.length_append] at consumed
  rw [effort]
  rcases Nat.eq_zero_or_pos (phase s) with waiting | running
  · have := length_rest_lt_of_short reading (short_of_phase_eq_zero reading.active waiting).2
    omega
  · omega

variable (silent : s.delivery = none)
include silent

/-- A step of the framer's own takes no byte and is one of the `phase` steps it can take. -/
theorem exec_ownOp {i : Instr} (own : s.ownOp = some i) :
    ∃ t, exec i s = .next t ∧ (Returned p rest t ∨
      (t.delivery = none ∧ Reading p rest t ∧ t.source = s.source ∧ phase t < phase s)) := by
  -- the operation runs, and if it delivers nothing it leaves the source and lowers `phase`
  suffices ∃ t, i ≠ .cancel ∧ exec i s = .next t ∧
      (t.delivery = none → t.source = s.source ∧ phase t < phase s) by
    obtain ⟨t, noCancel, run, lower⟩ := this
    rcases reading_or_returned reading silent noCancel (effect_of_exec run) with ⟨kept, goesOn⟩ | returned
    · exact ⟨t, run, .inr ⟨kept, goesOn, lower kept⟩⟩
    · exact ⟨t, run, .inl returned⟩
  cases st : s.st with
  | idle => exact absurd st reading.active
  | filling =>
    rcases Nat.lt_or_ge s.buf.length 14 with short | full
    · cases (ownOp_of_short st short).symm.trans own
    · cases (ownOp_of_full st full).symm.trans own
      refine ⟨_, by simp, exec_fill_of_filling st 0, fun _ => ?_⟩
      rw [fill_srcRequest_zero, phase_of_full st full, phase_of_resyncing rfl]
      exact ⟨rfl, by omega⟩
  | resyncing =>
    cases (ownOp_of_resyncing st).symm.trans own
    refine ⟨_, by simp, exec_resync0_of_resyncing st, fun _ => ⟨by simp, ?_⟩⟩
    rw [phase_of_resyncing st, phase_of_decoding rfl]
    split <;> omega
  | decoding =>
    cases (ownOp_of_decoding st).symm.trans own
    rcases exec_try_cases st with ⟨short, run⟩ | ⟨f, q, -, -, run⟩ | ⟨f, front, -, run⟩
    · refine ⟨_, by simp, run, fun _ => ⟨rfl, ?_⟩⟩
      rw [phase_of_decoding st, if_neg (Nat.not_le.2 short), phase_of_short (s := s.setSt .filling) rfl short]
      omega
    · exact ⟨_, by simp, run, nofun⟩
    · have bounded : s.buf.length ≤ 14 := reading.inv.bounded
      have trimmed : s.resyncAfterFailure.buf.length ≤ s.buf.length - 1 := length_trimToMarker_le s 1
      refine ⟨_, by simp, run, fun _ => ⟨by simp, ?_⟩⟩
      rw [phase_of_decoding st, if_pos (length_of_takeFrame front), phase_of_decoding rfl, if_neg (by omega)]
      omega

/-- A non-empty answer brings the `RETURN` nearer. -/
theorem exec_fill {m : Nat} (filling : s.st = .filling) (answered : 1 ≤ m) :
    ∃ t, exec (.fill m) s = .next t ∧ t.delivery = none ∧ Reading p rest t ∧ t.st = .resyncing ∧
      effort t < effort s := by
  have run := exec_fill_of_filling filling m
  refine ⟨_, run, silent, ?_, rfl, ?_⟩
  · rcases reading_or_returned reading silent (by simp) (effect_of_exec run) with ⟨-, goesOn⟩ | returned
    · exact goesOn
    · cases returned.idle
  · rw [effort, effort, phase_of_resyncing rfl]
    rcases Nat.lt_or_ge s.buf.length 14 with short | full
    · have held := length_rest_lt_of_short reading short
      rw [phase_of_short filling short, fill_srcRequest_eq]
      simp only [State.setSt_source, List.length_drop]
      omega
    · rw [phase_of_full filling full, fill_srcRequest_of_full full, State.setSt_source]
      omega

end reading

/-! ### One step -/

section step

variable {p : Payload} {rest : List Byte} {s : State} (reading : Reading p rest s)
include reading

theorem step_quiet (quiet : s.nextEvent = .quiet) :
    ∃ t, step s = .next t ∧ (Returned p rest t ∨
      (t.delivery = none ∧ Reading p rest t ∧ t.source = s.source ∧ phase t ≤ phase s - 1)) := by
  have begun := reading_beginStep reading
  cases own : s.ownOp with
  | none =>
    have still : phase s.beginStep = 0 := phase_eq_zero_of_ownOp_eq_none (s := s.beginStep) own
    exact ⟨_, step_of_quiet_none quiet own, .inr ⟨rfl, begun, rfl, by omega⟩⟩
  | some i =>
    obtain ⟨t, run, outcome⟩ := exec_ownOp begun rfl (i := i) own
    refine ⟨t, (step_of_quiet quiet own).trans run, outcome.imp_right ?_⟩
    rintro ⟨kept, goesOn, source, lower⟩
    exact ⟨kept, goesOn, source, Nat.le_sub_one_of_lt lower⟩

theorem step_fill {m : Nat} (answer : s.nextEvent = .op (.fill m)) (filling : s.st = .filling)
    (answered : 1 ≤ m) :
    ∃ t, step s = .next t ∧ t.delivery = none ∧ Reading p rest t ∧ t.st = .resyncing ∧
      effort t < effort s := by
  obtain ⟨t, run, outcome⟩ := exec_fill (reading_beginStep reading) rfl filling answered
  exact ⟨t, (step_of_selected (by rw [State.selected, answer])).trans run, outcome⟩

/-- On the ports the framer's own step is taken, or the byte that is offered (R188). -/
theorem step_offered {pins : Pins} (edge : s.nextEvent = .clock pins) (noReset : pins.rst = false)
    (goOn : pins.rdCancel = false) (offer : pins.inValid = true) :
    ∃ t, step s = .next t ∧ (Returned p rest t ∨
      (t.delivery = none ∧ Reading p rest t ∧ effort t < effort s)) := by
  have begun := reading_beginStep reading
  cases own : s.ownOp with
  | none =>
    obtain ⟨filling, short⟩ := short_of_phase_eq_zero reading.active (phase_eq_zero_of_ownOp_eq_none own)
    have held : s.source ≠ [] :=
      List.ne_nil_of_length_pos (Nat.zero_lt_of_lt (length_rest_lt_of_short reading short))
    have op : s.clockedOp pins = some (.fill 1) :=
      (clockedOp_of_short filling goOn short).trans (if_pos ⟨offer, held⟩)
    obtain ⟨t, run, kept, goesOn, -, lower⟩ := exec_fill begun rfl filling (Nat.le_refl 1)
    exact ⟨t, (step_of_clock edge noReset op).trans run, .inr ⟨kept, goesOn, lower⟩⟩
  | some i =>
    obtain ⟨t, run, outcome⟩ := exec_ownOp begun rfl (i := i) own
    have op : s.clockedOp pins = some i := clockedOp_of_ownOp goOn own
    refine ⟨t, (step_of_clock edge noReset op).trans run, outcome.imp_right ?_⟩
    rintro ⟨kept, goesOn, source, lower⟩
    refine ⟨kept, goesOn, ?_⟩
    rw [effort, effort, source]
    exact Nat.add_lt_add_left lower _

end step

/-! ### Runs that reach the `RETURN` -/

/-- Over `k` steps `p` and nothing else is delivered; then `BUF` is empty and `rest` is still at the source. -/
def Returns (p : Payload) (rest : List Byte) (k : Nat) (s : State) : Prop :=
  deliveries k s = [p] ∧
    ∃ t : State, core.run k s = .next t ∧ t.st = .idle ∧ t.buf = [] ∧ t.source = rest

theorem returns_of_silent_step {p : Payload} {rest : List Byte} {k : Nat} {s t : State} (h : step s = .next t)
    (silent : t.delivery = none) (later : Returns p rest k t) : Returns p rest (k + 1) s := by
  rw [Returns, deliveries_succ k h, core_run_succ k h, silent]
  exact later

/-- An event in which the host calls no `READ`: between `READ`s nothing happens in it. -/
def KeepsIdle (e : Event) : Prop := ∀ s : State, s.st = .idle → s.nextEvent = e → step s = .next s.beginStep

theorem keepsIdle_quiet : KeepsIdle .quiet := fun _ idle quiet => step_of_quiet_none quiet (ownOp_of_idle idle)

theorem keepsIdle_fill (m : Nat) : KeepsIdle (.op (.fill m)) := by
  intro s idle answer
  rw [step_of_selected (by rw [State.selected, answer])]
  exact exec_fill_of_ne_filling (by simp [idle]) m

theorem keepsIdle_clock {pins : Pins} (noReset : pins.rst = false) (noRead : pins.rdReq = false) :
    KeepsIdle (.clock pins) := fun _ idle edge =>
  step_of_clock_none edge noReset ((clockedOp_of_idle pins idle).trans (by simp [noRead]))

theorem keepsIdle_nextEvent {s : State} (h : ∀ e ∈ s.events, KeepsIdle e) : KeepsIdle s.nextEvent := by
  rw [State.nextEvent]
  cases events : s.events with
  | nil => exact keepsIdle_quiet
  | cons e es => exact h e (events ▸ List.mem_cons_self ..)

/-- Between `READ`s nothing is delivered and no byte is taken. -/
theorem run_idle (k : Nat) {s : State} (idle : s.st = .idle) (quiet : ∀ e ∈ s.events, KeepsIdle e) :
    deliveries k s = [] ∧
      ∃ t : State, core.run k s = .next t ∧ t.st = .idle ∧ t.buf = s.buf ∧ t.source = s.source := by
  induction k generalizing s with
  | zero => exact ⟨rfl, s, rfl, idle, rfl, rfl⟩
  | succ k ih =>
    have held : step s = .next s.beginStep := keepsIdle_nextEvent quiet s idle rfl
    rw [deliveries_succ k held, core_run_succ k held]
    exact ih (s := s.beginStep) idle fun e he => quiet e (List.mem_of_mem_tail he)

theorem returns_of_returned {p : Payload} {rest : List Byte} (k : Nat) {s t : State} (h : step s = .next t)
    (returned : Returned p rest t) (quiet : ∀ e ∈ t.events, KeepsIdle e) : Returns p rest (k + 1) s := by
  obtain ⟨nothing, u, run, idle, buf, source⟩ := run_idle k returned.idle quiet
  rw [Returns, deliveries_succ k h, core_run_succ k h, returned.delivered, nothing]
  exact ⟨rfl, u, run, idle, buf.trans returned.empty, source.trans returned.source⟩

theorem nextEvent_of_events {s : State} {e : Event} {es : List Event} (h : s.events = e :: es) :
    s.nextEvent = e := by
  rw [State.nextEvent, h]
  rfl

theorem events_of_step {s t : State} {e : Event} {es : List Event} (h : step s = .next t)
    (events : s.events = e :: es) : t.events = es := by
  rw [step_events h, events]
  rfl

/-! ### Chunked answers (R24, R182) -/

theorem keepsIdle_chunked {answers : List Nat} : ∀ e ∈ chunked answers, KeepsIdle e := by
  intro e he
  obtain ⟨m, -, he⟩ := List.mem_flatMap.1 he
  simp only [List.mem_cons, List.not_mem_nil, or_false] at he
  rcases he with rfl | rfl | rfl | rfl
  · exact keepsIdle_fill m
  · exact keepsIdle_quiet
  · exact keepsIdle_quiet
  · exact keepsIdle_quiet

/-- In `n` quiet steps the `READ` returns, or the framer takes `n` of the steps it can take without a byte. -/
theorem returns_of_quiets {p : Payload} {rest : List Byte} {k : Nat} {es : List Event} (n : Nat) {s : State}
    (reading : Reading p rest s) (events : s.events = List.replicate n .quiet ++ es)
    (quiet : ∀ e ∈ es, KeepsIdle e)
    (later : ∀ t, Reading p rest t → t.events = es → t.source = s.source → phase t ≤ phase s - n →
      Returns p rest k t) : Returns p rest (k + n) s := by
  induction n generalizing s with
  | zero => exact later s reading events rfl (Nat.le_refl _)
  | succ n ih =>
    have events : s.events = .quiet :: (List.replicate n .quiet ++ es) := events
    obtain ⟨t, h, outcome⟩ := step_quiet reading (nextEvent_of_events events)
    have events_t := events_of_step h events
    rcases outcome with returned | ⟨silent, goesOn, source, lower⟩
    · refine returns_of_returned (k + n) h returned fun e he => ?_
      rcases List.mem_append.1 (events_t ▸ he) with he | he
      · exact List.eq_of_mem_replicate he ▸ keepsIdle_quiet
      · exact quiet e he
    · refine returns_of_silent_step h silent (ih goesOn events_t ?_)
      intro u reading_u events_u source_u lower_u
      exact later u reading_u events_u (source_u.trans source) (by omega)

/-- Each non-empty answer with its three quiet steps is worth one byte, so enough of them reach the
`RETURN`. -/
theorem returns_of_chunked {p : Payload} {rest : List Byte} (answers : List Nat) {s : State}
    (reading : Reading p rest s) (filling : s.st = .filling) (events : s.events = chunked answers)
    (answered : ∀ m ∈ answers, 1 ≤ m) (enough : effort s ≤ 4 * rest.length + 4 * answers.length) :
    Returns p rest (4 * answers.length) s := by
  induction answers generalizing s with
  | nil => exact absurd (length_rest_lt_effort reading) (Nat.not_lt.2 enough)
  | cons m answers ih =>
    have events : s.events = .op (.fill m) :: (List.replicate 3 .quiet ++ chunked answers) := events
    obtain ⟨first, answered⟩ := List.forall_mem_cons.1 answered
    obtain ⟨t, h, silent, goesOn, resyncing, lower⟩ :=
      step_fill reading (nextEvent_of_events events) filling first
    have phase_t := phase_of_resyncing resyncing
    refine returns_of_silent_step (k := 4 * answers.length + 3) h silent
      (returns_of_quiets 3 goesOn (events_of_step h events) keepsIdle_chunked ?_)
    intro u reading_u events_u source_u lower_u
    have phase_u : phase u = 0 := by omega
    refine ih reading_u (short_of_phase_eq_zero reading_u.active phase_u).1 events_u answered ?_
    rw [effort, phase_t] at lower
    rw [effort, source_u, phase_u]
    rw [List.length_cons] at enough
    omega

/-- Settles O56: an answer for each byte at the source is enough (R182, R184). -/
theorem everyChunkingReturnsTheScannedPayload : Obligations.EveryChunkingReturnsTheScannedPayload := by
  intro s p rest answers filling bounded scanned answered enough
  have reading : Reading p rest { s with events := chunked answers } :=
    ⟨by simp [filling], inv_of_st_ne bounded (by simp [filling]), scanned⟩
  have bound : effort { s with events := chunked answers } ≤ 4 * rest.length + 4 * answers.length := by
    have : effort { s with events := chunked answers } ≤ 4 * s.source.length + 4 := effort_le _
    omega
  obtain ⟨delivered, t, run, idle, empty, source⟩ :=
    returns_of_chunked answers reading filling rfl answered bound
  exact ⟨delivered, t, run, idle, by rw [empty, source, List.nil_append]⟩

/-- From an empty `BUF` an answer for each byte that `SCAN` consumes is enough. -/
theorem returns_of_empty {p : Payload} {rest : List Byte} {answers : List Nat} {s : State}
    (filling : s.st = .filling) (empty : s.buf = [])
    (scanned : scan s.source = some (p, rest)) (answered : ∀ m ∈ answers, 1 ≤ m)
    (enough : s.source.length ≤ rest.length + answers.length) :
    Returns p rest (4 * answers.length) { s with events := chunked answers } := by
  have reading : Reading p rest { s with events := chunked answers } :=
    ⟨by simp [filling], inv_of_st_ne (by simp [empty]) (by simp [filling]), by rw [empty]; exact scanned⟩
  refine returns_of_chunked answers reading filling rfl answered ?_
  have : effort { s with events := chunked answers } = 4 * s.source.length :=
    congrArg (4 * s.source.length + ·) (phase_of_short (s := { s with events := _ }) filling (by simp [empty]))
  omega

/-- Settles O59: `SCAN` skips the noise and takes the frame (R186, R187). -/
theorem garbagePrefixIsSkippedInAnyChunks : Obligations.GarbagePrefixIsSkippedInAnyChunks := by
  intro s noise rest f answers filling empty source noMarker valid answered enough
  have scanned : scan s.source = some (decodedLanes f, rest) := by
    rw [source, List.append_assoc, scan_append_of_not_mem noMarker, scan_of_validFrame valid]
  have frame : f.toList.length = 14 := Vector.length_toList ..
  refine returns_of_empty filling empty scanned answered ?_
  rw [source, List.length_append, List.length_append, frame]
  omega

/-! ### A corrupt frame (R185) -/

/-- Two frames' windows that begin inside the first are the same with anything after the second. -/
theorem takeFrame_drop_two {a v g : Frame} {rest : List Byte} {i : Nat} (inside : i < 14)
    (window : takeFrame ((a.toList ++ (v.toList ++ rest)).drop i) = some g) :
    takeFrame ((a.toList ++ v.toList).drop i) = some g := by
  have length : (a.toList ++ v.toList).length = 28 := by simp
  obtain ⟨f, front⟩ := exists_takeFrame_of_le_length (c := (a.toList ++ v.toList).drop i)
    (by rw [List.length_drop, length]; omega)
  rw [← List.append_assoc, List.drop_append_of_le_length (by omega),
    takeFrame_append_of_eq_some front] at window
  exact front.trans window

/-- With R185's proviso (90_conflicts.md C6) no window that begins in the corrupt frame is valid. -/
theorem scan_corrupt_then_valid {a v : Frame} {rest : List Byte} (invalid : ¬ ValidFrame a)
    (valid : ValidFrame v) (proviso : ∀ (i : Nat) (g : Frame) (after : List Byte), 1 ≤ i → i < 14 →
      (a.toList ++ v.toList).drop i = g.toList ++ after → g[0] = 0x02#8 → ¬ ValidFrame g) :
    scan (a.toList ++ v.toList ++ rest) = some (decodedLanes v, rest) := by
  rw [List.append_assoc, scan_append_of_no_validFrame (by simp), scan_of_validFrame valid]
  intro i inside g after window valid_g
  have front := takeFrame_drop_two (by simpa using inside) (takeFrame_of_eq_append window)
  rcases Nat.eq_zero_or_pos i with rfl | later
  · rw [List.drop_zero, takeFrame_append] at front
    cases front
    exact invalid valid_g
  · exact proviso i g _ later (by simpa using inside) (takeFrame_split front) valid_g.1 valid_g

/-- Settles O60: `SCAN` passes over the corrupt frame's own marker, and with the proviso over all of it; what
runs deliver is O55's, what chunked answers deliver is `returns_of_empty`'s (R185, C6). -/
theorem corruptFrameThenValidFrame : Obligations.CorruptFrameThenValidFrame := by
  intro a v rest _ _ invalid valid
  have skipped : scan (a.toList ++ v.toList ++ rest) = scan (a.toList.drop 1 ++ v.toList ++ rest) := by
    rw [List.append_assoc, scan_of_not_validFrame invalid, List.append_assoc]
  refine ⟨fun proviso => ?_, skipped, fun k s p more stream noReset delivered => ?_⟩
  · have scanned : scan (a.toList ++ v.toList ++ rest) = some (decodedLanes v, rest) :=
      scan_corrupt_then_valid invalid valid proviso
    refine ⟨scanned, fun s answers filling empty source answered enough => ?_⟩
    refine returns_of_empty filling empty (source ▸ scanned) answered ?_
    have length : (a.toList ++ v.toList).length = 28 := by simp
    rw [source, List.length_append, length]
    omega
  · obtain ⟨left, scanned, -⟩ := runsDeliverTheScannedPayloads k s noReset
    rw [delivered, stream] at scanned
    obtain ⟨left, first⟩ := scan_of_scans_succ scanned
    exact ⟨left, skipped.symm.trans first⟩

/-! ### A source that always offers a byte (R184, R188) -/

theorem keepsIdle_offering {cycles : Nat} : ∀ e ∈ offering cycles, KeepsIdle e := by
  intro e he
  rw [List.eq_of_mem_replicate he]
  exact keepsIdle_clock rfl rfl

/-- Each cycle brings the `RETURN` nearer, so enough of them reach it. -/
theorem returns_of_offering {p : Payload} {rest : List Byte} (cycles : Nat) {s : State}
    (reading : Reading p rest s) (events : s.events = offering cycles)
    (enough : effort s ≤ 4 * rest.length + cycles) :
    Returns p rest cycles s := by
  induction cycles generalizing s with
  | zero => exact absurd (length_rest_lt_effort reading) (Nat.not_lt.2 enough)
  | succ cycles ih =>
    have events : s.events = .clock _ :: offering cycles := events
    obtain ⟨t, h, outcome⟩ := step_offered reading (nextEvent_of_events events) rfl rfl rfl
    have events_t := events_of_step h events
    rcases outcome with returned | ⟨silent, goesOn, lower⟩
    · exact returns_of_returned cycles h returned (events_t ▸ keepsIdle_offering)
    · exact returns_of_silent_step h silent (ih goesOn events_t (by omega))

/-- Settles O57: the bound is that of the effort, four cycles a byte and four more (R184). -/
theorem fairPortRunReturnsTheScannedPayload : Obligations.FairPortRunReturnsTheScannedPayload := by
  intro s p rest cycles inv active scanned enough
  have reading : Reading p rest { s with events := offering cycles } :=
    ⟨active, ⟨inv.bounded, inv.decodingNormal⟩, scanned⟩
  have bound : effort { s with events := offering cycles } ≤ 4 * rest.length + cycles := by
    have : effort { s with events := offering cycles } ≤ 4 * s.source.length + 4 := effort_le _
    omega
  obtain ⟨delivered, t, run, idle, empty, source⟩ := returns_of_offering cycles reading rfl bound
  exact ⟨delivered, t, run, idle, by rw [empty, source, List.nil_append]⟩

end Sys2Proof.Proofs.StreamLiveness

/-! Refusals and faults (60_exceptions.md R200, R217): every operation of the framer has a next state, and of the
decoder's side only `PARSE` can be refused, which a step takes only when its event names it. -/

namespace Sys2Proof.Proofs.Exceptions

open Sys2Proof Sys2Proof.Machine
open Sys2Proof.Proofs.Encoding Sys2Proof.Proofs.FramerState
open Sys2Proof.Proofs.FramerOps Sys2Proof.Proofs.FramerSteps

/-! ### One operation -/

theorem exec_tryDecode_next (s : State) : ∃ t, exec .tryDecode s = .next t := by
  by_cases decoding : s.st = .decoding
  · rcases exec_try_cases decoding with ⟨-, waits⟩ | ⟨f, p, -, -, delivers⟩ | ⟨f, -, -, fails⟩
    · exact ⟨_, waits⟩
    · exact ⟨_, delivers⟩
    · exact ⟨_, fails⟩
  · exact ⟨_, exec_tryDecode_of_ne_decoding decoding⟩

theorem exec_resync1_next (s : State) : ∃ t, exec .resync1 s = .next t := by
  by_cases fails : s.st = .decoding ∧ ∃ f, takeFrame s.buf = some f ∧ parse f = .invalid
  · obtain ⟨decoding, f, front, invalid⟩ := fails
    exact ⟨_, exec_resync1_of_invalid decoding front invalid⟩
  · exact ⟨_, exec_resync1_of_disabled fun decoding f front invalid => fails ⟨decoding, f, front, invalid⟩⟩

theorem exec_returnPayload_next (s : State) : ∃ t, exec .returnPayload s = .next t := by
  cases due : s.returnDue with
  | some p =>
    obtain ⟨decoding, f, front, valid⟩ := (returnDue_eq_some_iff s p).1 due
    exact ⟨_, exec_returnPayload_of_valid decoding front valid⟩
  | none =>
    refine ⟨_, exec_returnPayload_of_disabled fun decoding f front => ?_⟩
    cases verdict : parse f with
    | invalid => rfl
    | valid p => cases due.symm.trans ((returnDue_eq_some_iff s p).2 ⟨decoding, f, front, verdict⟩)

/-- No operation of the framer faults or is refused: enabled it has its effect, disabled it holds (R172,
log 3). -/
theorem exec_framer_next {i : Instr} (hi : decoderSide i = false) (s : State) : ∃ t, exec i s = .next t := by
  cases i with
  | valid | invalid | chks | chke | csum | ccmp | keyd | xdec | parse | encode => cases hi
  | read => exact (em (s.st = .idle)).elim (⟨_, exec_read_of_idle ·⟩) (⟨_, exec_read_of_ne_idle ·⟩)
  | fill m =>
    exact (em (s.st = .filling)).elim (⟨_, exec_fill_of_filling · m⟩) (⟨_, exec_fill_of_ne_filling · m⟩)
  | resync0 =>
    exact (em (s.st = .resyncing)).elim (⟨_, exec_resync0_of_resyncing ·⟩)
      (⟨_, exec_resync0_of_ne_resyncing ·⟩)
  | tryDecode => exact exec_tryDecode_next s
  | resync1 => exact exec_resync1_next s
  | returnPayload => exact exec_returnPayload_next s
  | cancel => exact (em (s.st = .idle)).elim (⟨_, exec_cancel_of_idle ·⟩) (⟨_, exec_cancel_of_ne_idle ·⟩)

/-- The only operation without a next state is `PARSE` of fewer than 14 bytes (R64, R200). -/
theorem exec_next_or_short_parse (i : Instr) (s : State) :
    (∃ t, exec i s = .next t) ∨
      ∃ c : List Byte, i = .parse c ∧ c.length < 14 ∧ exec i s = .refused .shortCandidate := by
  cases i with
  | valid | invalid | chks | chke | csum | ccmp | keyd | xdec | encode => exact .inl ⟨_, rfl⟩
  | parse c =>
    rcases exec_parse c s with ⟨short, refused⟩ | ⟨f, -, driven⟩
    · exact .inr ⟨c, rfl, short, refused⟩
    · exact .inl ⟨_, driven⟩
  | read | fill | resync0 | tryDecode | resync1 | returnPayload | cancel => exact .inl (exec_framer_next rfl s)

/-! ### The event behind a `PARSE` -/

/-- A clock edge takes operations of the framer only (R188, R189). -/
theorem decoderSide_of_clockedOp {s : State} {p : Pins} {i : Instr} (h : s.clockedOp p = some i) :
    decoderSide i = false := by
  rcases clockedOp_cases h with rfl | rfl | rfl | ⟨rfl, -⟩ | ⟨rfl, -⟩ | ⟨rfl, -⟩ <;> rfl

/-- So does `ST` by itself: what it calls for is what an edge without `rd_cancel` takes. -/
theorem decoderSide_of_ownOp {s : State} {i : Instr} (h : s.ownOp = some i) : decoderSide i = false :=
  decoderSide_of_clockedOp (clockedOp_of_ownOp (p := ⟨false, false, false, false⟩) rfl h)

/-- A frame on the port is one of the two rows, never a `PARSE` (R97). -/
theorem classify_ne_parse (f : Frame) (c : List Byte) : classify f ≠ .parse c := by
  by_cases valid : ValidFrame f
  · rw [classify_of_validFrame valid]
    exact nofun
  · rw [classify_of_not_validFrame valid]
    exact nofun

/-- A step takes a `PARSE` only when its event names it. -/
theorem nextEvent_of_selected_parse {s : State} {c : List Byte} (h : s.selected = some (.parse c)) :
    s.nextEvent = .op (.parse c) := by
  rw [State.selected] at h
  cases e : s.nextEvent with
  | quiet => rw [e] at h; cases decoderSide_of_ownOp h
  | op i => rw [e] at h; exact congrArg _ (Option.some.inj h)
  | present w => rw [e] at h; exact absurd (Option.some.inj h) (classify_ne_parse _ c)
  | arrive | reset => rw [e] at h; cases h
  | clock p =>
    simp only [e] at h
    split at h
    · cases h
    · cases decoderSide_of_clockedOp h

/-- An event that is not `quiet` stands in the schedule: the one used up counts as `quiet` (log 1). -/
theorem exists_events_of_nextEvent_op {s : State} {i : Instr} (h : s.nextEvent = .op i) :
    ∃ es, s.events = .op i :: es := by
  rw [State.nextEvent] at h
  cases events : s.events with
  | nil => rw [events] at h; cases h
  | cons e es => rw [events] at h; exact ⟨es, congrArg (· :: es) h⟩

/-! ### One step -/

/-- Settles O27: a step is refused only by the operation it takes, a short `PARSE`, which its event names (R200,
R217). -/
theorem onlyShortParseStopsTheMachine : Obligations.OnlyShortParseStopsTheMachine := by
  refine ⟨exec_next_or_short_parse, fun s => ?_⟩
  cases selected : s.selected with
  | none => exact .inl ⟨_, step_of_not_selected selected⟩
  | some i =>
    rw [step_of_selected selected]
    rcases exec_next_or_short_parse i s.beginStep with next | ⟨c, rfl, short, refused⟩
    · exact .inl next
    · obtain ⟨es, events⟩ := exists_events_of_nextEvent_op (nextEvent_of_selected_parse selected)
      exact .inr ⟨c, es, events, short, refused⟩

end Sys2Proof.Proofs.Exceptions

/-! The framer's reset (70_reset_and_hazards.md R240, R242, R243). -/

namespace Sys2Proof.Proofs.FramerReset

open Sys2Proof Sys2Proof.Machine
open Sys2Proof.Proofs.FramerSteps

/-- In a cycle of `rst` no `RETURN` is taken, even one that is due (R207, R242). -/
theorem outValid_of_rst (s : State) {p : Pins} (rst : p.rst = true) : s.outValid p = false := by
  rw [State.outValid, rst, Bool.not_true, Bool.false_and]

/-- The pin `rst` resets the framer as the transaction-level event does (R240). -/
theorem resets_of_reset_or_rst {e : Event} {p : Pins} (rst : p.rst = true)
    (h : e = .reset ∨ e = .clock p) : e.resets = true := by
  rcases h with rfl | rfl
  · rfl
  · exact rst

/-- Settles O2: either form of reset takes the step of `resetFramer`, which leaves the byte source as it is. -/
theorem resetEmptiesTheFramerOnly : Obligations.ResetEmptiesTheFramerOnly := by
  intro s es e p rst form
  have resets : e.resets = true := resets_of_reset_or_rst rst form
  exact ⟨step_of_resets (s := { s with events := e :: es }) resets, outValid_of_rst s rst⟩

end Sys2Proof.Proofs.FramerReset
